-- ==== Sys2Proof/Word.lean ====
section
/-! DEFINITION. The widths the core works with (10_state.md R20, 30_encoding.md R71): every register is an unsigned
bit vector and bit 0 is the least significant (00_scope.md R11). -/

namespace Sys2Proof

/-- One character of a buffer: an opaque 8-bit byte (00_scope.md R7, decision D16). -/
abbrev Byte := BitVec 8

/-- The 16-bit data word of a block (30_encoding.md R71). -/
abbrev DataWord := BitVec 16

/-- The 26-bit window `W` (10_state.md R21). -/
abbrev Window := BitVec 26

/-- The 10-bit syndrome, and the width of every entry of PCM and OFFS (40_syndrome_decoder.md R100). -/
abbrev Syndrome := BitVec 10

/-- The 64-bit data view `G = A || B || C || D` of a group (30_encoding.md R72). -/
abbrev GroupView := BitVec 64

end Sys2Proof
end

