-- ==== Sys2Proof/Config.lean ====
section
/-! DEFINITION. The parameters the spec leaves open (00_scope.md R7): the parity table, the five role constants and the
width of the position counter. They are constants of the hardware, written by no operation (10_state.md R30, 20_memory.md
R60), and arguments of the model: a statement about every state is a statement about every configuration (log 1).
The reference values stand in Decode.lean, beside the table rows that carry them. -/

namespace Sys2Proof

/-- One configuration of the hardware (00_scope.md R7). Its legality is `Config.wellFormed`. -/
structure Config where
  /-- `PCM[0..25]`; entry `i` belongs to window bit `i`, bit 0 received last (40_syndrome_decoder.md R100, log 21). -/
  pcm : Vector Syndrome 26
  /-- `OFFS[A]` (40_syndrome_decoder.md R101). -/
  offsA : Syndrome
  /-- `OFFS[B]`. -/
  offsB : Syndrome
  /-- `OFFS[C]`. -/
  offsC : Syndrome
  /-- `OFFS[Cp]`. -/
  offsCp : Syndrome
  /-- `OFFS[D]`. -/
  offsD : Syndrome
  /-- `POSW`, the width of the position counter in bits (10_state.md R25). -/
  posw : Nat
deriving DecidableEq, Repr

end Sys2Proof
end

