-- ==== Sys2Proof/Syntax.lean ====
section
/-! DEFINITION. The operations of the core, one constructor per row of spec/opcode_table.json (30_encoding.md R84), and
the form in which a row's bits are written down. Every operand has exactly the width of its field, and the bits the spec
ignores are kept as operands, so that no bit of an encoding is dropped. -/

namespace Sys2Proof

/-- `BlockRole`: "one of A, B, C, C′, D" (00_scope.md glossary). `NONE` is the absence of a role, `none : Option BlockRole`. -/
inductive BlockRole where
  | A | B | C | Cp | D
deriving DecidableEq, Repr

/-- The three always-driven output ports of 30_encoding.md R80. -/
inductive Port where
  | psOut | rtOut | readyOut
deriving DecidableEq, Repr

/-- The operations of the core: the 28 rows of spec/opcode_table.json, format by format. -/
inductive Instr where
  /-- SUBMIT_BIT_0, `cmd = 0b010` (R80, R120). -/
  | submitBit0
  /-- SUBMIT_BIT_1, `cmd = 0b011` (R80, R120). -/
  | submitBit1
  /-- RESET, `cmd = 0b1vb` with both low bits ignored (R80, R172, R193). -/
  | reset (v b : BitVec 1)
  /-- IDLE, `cmd = 0b00b` with the low bit ignored (R80). -/
  | idle (b : BitVec 1)
  /-- PROGRAM_NAME, the read of port `ps_out` (R170). -/
  | programName
  /-- MESSAGE_TEXT, the read of port `rt_out` (R171). -/
  | messageText
  /-- IS_READY, the read of port `ready_out` (R173). -/
  | isReady
  /-- GROUP_T0_PROGRAM_NAME (R151): word A, the ignored bits `B[11:2]`, the segment index `B[1:0]`, the ignored
  word C, word D. -/
  | groupT0ProgramName (a : DataWord) (x : BitVec 10) (i : BitVec 2) (c d : DataWord)
  /-- GROUP_T1_IGNORED (R153): word A, the ignored bits `B[11:0]`, words C and D, all ignored. -/
  | groupT1Ignored (a : DataWord) (x : BitVec 12) (c d : DataWord)
  /-- GROUP_T2_MESSAGE_TEXT (R152): word A, the ignored bits `B[11:5]`, the variant `B[4]`, the segment index `B[3:0]`,
  words C and D. -/
  | groupT2MessageText (a : DataWord) (x : BitVec 7) (v : BitVec 1) (i : BitVec 4) (c d : DataWord)
  /-- GROUP_T3_IGNORED (R153): word A, the ignored bits `B[11:0]`, words C and D, all ignored. -/
  | groupT3Ignored (a : DataWord) (x : BitVec 12) (c d : DataWord)
  /-- GROUP_T4_IGNORED (R153): word A, the ignored bits `B[11:0]`, words C and D, all ignored. -/
  | groupT4Ignored (a : DataWord) (x : BitVec 12) (c d : DataWord)
  /-- GROUP_T5_IGNORED (R153): word A, the ignored bits `B[11:0]`, words C and D, all ignored. -/
  | groupT5Ignored (a : DataWord) (x : BitVec 12) (c d : DataWord)
  /-- GROUP_T6_IGNORED (R153): word A, the ignored bits `B[11:0]`, words C and D, all ignored. -/
  | groupT6Ignored (a : DataWord) (x : BitVec 12) (c d : DataWord)
  /-- GROUP_T7_IGNORED (R153): word A, the ignored bits `B[11:0]`, words C and D, all ignored. -/
  | groupT7Ignored (a : DataWord) (x : BitVec 12) (c d : DataWord)
  /-- GROUP_T8_IGNORED (R153): word A, the ignored bits `B[11:0]`, words C and D, all ignored. -/
  | groupT8Ignored (a : DataWord) (x : BitVec 12) (c d : DataWord)
  /-- GROUP_T9_IGNORED (R153): word A, the ignored bits `B[11:0]`, words C and D, all ignored. -/
  | groupT9Ignored (a : DataWord) (x : BitVec 12) (c d : DataWord)
  /-- GROUP_T10_IGNORED (R153): word A, the ignored bits `B[11:0]`, words C and D, all ignored. -/
  | groupT10Ignored (a : DataWord) (x : BitVec 12) (c d : DataWord)
  /-- GROUP_T11_IGNORED (R153): word A, the ignored bits `B[11:0]`, words C and D, all ignored. -/
  | groupT11Ignored (a : DataWord) (x : BitVec 12) (c d : DataWord)
  /-- GROUP_T12_IGNORED (R153): word A, the ignored bits `B[11:0]`, words C and D, all ignored. -/
  | groupT12Ignored (a : DataWord) (x : BitVec 12) (c d : DataWord)
  /-- GROUP_T13_IGNORED (R153): word A, the ignored bits `B[11:0]`, words C and D, all ignored. -/
  | groupT13Ignored (a : DataWord) (x : BitVec 12) (c d : DataWord)
  /-- GROUP_T14_IGNORED (R153): word A, the ignored bits `B[11:0]`, words C and D, all ignored. -/
  | groupT14Ignored (a : DataWord) (x : BitVec 12) (c d : DataWord)
  /-- GROUP_T15_PROGRAM_NAME (R151): word A, the ignored bits `B[11:2]`, the segment index `B[1:0]`, the ignored
  word C, word D. -/
  | groupT15ProgramName (a : DataWord) (x : BitVec 10) (i : BitVec 2) (c d : DataWord)
  /-- ROLE_A: a syndrome equal to `OFFS[A]` (R101). -/
  | roleA
  /-- ROLE_B: a syndrome equal to `OFFS[B]` (R101). -/
  | roleB
  /-- ROLE_C: a syndrome equal to `OFFS[C]` (R101). -/
  | roleC
  /-- ROLE_CP: a syndrome equal to `OFFS[Cp]` (R101). -/
  | roleCp
  /-- ROLE_D: a syndrome equal to `OFFS[D]` (R101). -/
  | roleD
deriving DecidableEq, Repr

/-- The four formats of spec/opcode_table.json (30_encoding.md R84). -/
inductive Format where
  | cmd | port | group | syndrome
deriving DecidableEq, Repr

/-- The width of a format's word in bits (30_encoding.md R84). A PORT row has no bits; the model numbers the three ports
with two bits of its own (log 8). -/
def Format.width : Format → Nat
  | .cmd => 3
  | .port => 2
  | .group => 64
  | .syndrome => 10

/-- The bits of one operation in its format, as a number with bit 0 least significant. Any number may stand here; the
decoder refuses what is too wide for the format. -/
structure TableWord where
  format : Format
  bits : Nat
deriving DecidableEq, Repr

end Sys2Proof
end

