-- ==== Sys2Proof/WellFormed.lean ====
section
/-! DEFINITION. What makes a configuration legal (00_scope.md R7, R8) and an operation well-formed in it. The operands of
an operation have exactly the widths of their fields, so an operation can be ill-formed only through the configuration
that gives its row a meaning. -/

namespace Sys2Proof

/-- The five role constants in the order of 30_encoding.md R83. -/
def Config.roleConstants (cfg : Config) : List Syndrome :=
  [cfg.offsA, cfg.offsB, cfg.offsC, cfg.offsCp, cfg.offsD]

/-- 00_scope.md R8: the five values `OFFS[r]` are pairwise distinct. -/
def Config.offsDistinct (cfg : Config) : Bool :=
  decide cfg.roleConstants.Nodup

/-- 00_scope.md R7: `POSW >= 5`, so that 26 can be counted. -/
def Config.poswEnough (cfg : Config) : Bool :=
  decide (5 ≤ cfg.posw)

/-- A configuration of this hardware (00_scope.md R7, R8); the machine refuses any other (93_implementation_defined.md U2). -/
def Config.wellFormed (cfg : Config) : Bool :=
  cfg.offsDistinct && cfg.poswEnough

/-- An operation is well-formed in a configuration: a ROLE row means one role only where the role constants are
pairwise distinct (R8, R102); every other row is well-formed in every configuration. -/
def Instr.wellFormed (cfg : Config) : Instr → Bool
  | .submitBit0 => true
  | .submitBit1 => true
  | .reset _ _ => true
  | .idle _ => true
  | .programName => true
  | .messageText => true
  | .isReady => true
  | .groupT0ProgramName _ _ _ _ _ => true
  | .groupT1Ignored _ _ _ _ => true
  | .groupT2MessageText _ _ _ _ _ _ => true
  | .groupT3Ignored _ _ _ _ => true
  | .groupT4Ignored _ _ _ _ => true
  | .groupT5Ignored _ _ _ _ => true
  | .groupT6Ignored _ _ _ _ => true
  | .groupT7Ignored _ _ _ _ => true
  | .groupT8Ignored _ _ _ _ => true
  | .groupT9Ignored _ _ _ _ => true
  | .groupT10Ignored _ _ _ _ => true
  | .groupT11Ignored _ _ _ _ => true
  | .groupT12Ignored _ _ _ _ => true
  | .groupT13Ignored _ _ _ _ => true
  | .groupT14Ignored _ _ _ _ => true
  | .groupT15ProgramName _ _ _ _ _ => true
  | .roleA => cfg.offsDistinct
  | .roleB => cfg.offsDistinct
  | .roleC => cfg.offsDistinct
  | .roleCp => cfg.offsDistinct
  | .roleD => cfg.offsDistinct

end Sys2Proof
end

