-- ==== Sys2Proof/Decode.lean ====
section
/-! DEFINITION. From the bits of a row to its operation and back (30_encoding.md R77, R80, R84). The core fetches no
program: what it decodes is the command word of each step, the syndrome of each window and the group view of each
completed group. Each format has a total decoder of its own; `decode` puts them together and rejects by name. -/

namespace Sys2Proof

/-- The reference configuration: the parity table and role constants of 40_syndrome_decoder.md R104 and `POSW = 8` of
00_scope.md R7. PRESUMED: the spec marks these values as general knowledge; unsafe where a statement leans on them
(log 1, log 2). -/
def referenceConfig : Config where
  pcm := #v[0x31B, 0x38F, 0x2A7, 0x0F7, 0x1EE, 0x3DC, 0x201, 0x1BB, 0x376, 0x355, 0x313, 0x39F, 0x287,
            0x0B7, 0x16E, 0x2DC, 0x001, 0x002, 0x004, 0x008, 0x010, 0x020, 0x040, 0x080, 0x100, 0x200]
  offsA := 0x3D8
  offsB := 0x3D4
  offsC := 0x25C
  offsCp := 0x3CC
  offsD := 0x258
  posw := 8

/-- Why a word is no operation. None of these is a fault of the hardware (30_encoding.md R78). -/
inductive Reject where
  /-- The number has more bits than the format's word. -/
  | tooWide
  /-- The model numbers three ports, and this is a fourth (log 8). -/
  | noSuchPort
  /-- The syndrome equals none of the five constants: the role NONE, "a normal outcome, not a failure" (R78). -/
  | roleNone
deriving DecidableEq, Repr

/-- The `n` bits of a group view from bit `lo` up: `G[lo+n-1:lo]` (00_scope.md R11). -/
def field (g : GroupView) (lo n : Nat) : BitVec n :=
  g.extractLsb' lo n

/-- The command word `cmd[2:0] = reset_req || bit_valid || bit_in` (30_encoding.md R80). -/
def decodeCmd (c : BitVec 3) : Instr :=
  let resetReq := c.extractLsb' 2 1
  let bitValid := c.extractLsb' 1 1
  let bitIn := c.extractLsb' 0 1
  if resetReq = 1#1 then .reset bitValid bitIn
  else if bitValid = 1#1 then (if bitIn = 1#1 then .submitBit1 else .submitBit0)
  else .idle bitIn

/-- The read operation of a port (30_encoding.md R80). -/
def decodePort : Port → Instr
  | .psOut => .programName
  | .rtOut => .messageText
  | .readyOut => .isReady

/-- The model's numbers for the ports, in the order of the table's rows (DESIGN CHOICE, log 8). -/
def portOfNumber : Nat → Option Port
  | 0 => some .psOut
  | 1 => some .rtOut
  | 2 => some .readyOut
  | _ => none

/-- The group view by its type `G[47:44] = B[15:12]` (30_encoding.md R74, R77). The type has four bits, so the last arm is
type 15 and no other. -/
def decodeGroupView (g : GroupView) : Instr :=
  match (field g 44 4).toNat with
  | 0 => .groupT0ProgramName (field g 48 16) (field g 34 10) (field g 32 2) (field g 16 16) (field g 0 16)
  | 1 => .groupT1Ignored (field g 48 16) (field g 32 12) (field g 16 16) (field g 0 16)
  | 2 => .groupT2MessageText (field g 48 16) (field g 37 7) (field g 36 1) (field g 32 4) (field g 16 16) (field g 0 16)
  | 3 => .groupT3Ignored (field g 48 16) (field g 32 12) (field g 16 16) (field g 0 16)
  | 4 => .groupT4Ignored (field g 48 16) (field g 32 12) (field g 16 16) (field g 0 16)
  | 5 => .groupT5Ignored (field g 48 16) (field g 32 12) (field g 16 16) (field g 0 16)
  | 6 => .groupT6Ignored (field g 48 16) (field g 32 12) (field g 16 16) (field g 0 16)
  | 7 => .groupT7Ignored (field g 48 16) (field g 32 12) (field g 16 16) (field g 0 16)
  | 8 => .groupT8Ignored (field g 48 16) (field g 32 12) (field g 16 16) (field g 0 16)
  | 9 => .groupT9Ignored (field g 48 16) (field g 32 12) (field g 16 16) (field g 0 16)
  | 10 => .groupT10Ignored (field g 48 16) (field g 32 12) (field g 16 16) (field g 0 16)
  | 11 => .groupT11Ignored (field g 48 16) (field g 32 12) (field g 16 16) (field g 0 16)
  | 12 => .groupT12Ignored (field g 48 16) (field g 32 12) (field g 16 16) (field g 0 16)
  | 13 => .groupT13Ignored (field g 48 16) (field g 32 12) (field g 16 16) (field g 0 16)
  | 14 => .groupT14Ignored (field g 48 16) (field g 32 12) (field g 16 16) (field g 0 16)
  | _  => .groupT15ProgramName (field g 48 16) (field g 34 10) (field g 32 2) (field g 16 16) (field g 0 16)

/-- The role whose constant equals the syndrome, compared in the order of 40_syndrome_decoder.md R101. In a legal
configuration at most one comparison succeeds (R102); the order is no tie-break (log 20). -/
def roleOfSyndrome (cfg : Config) (s : Syndrome) : Option BlockRole :=
  if s = cfg.offsA then some .A
  else if s = cfg.offsB then some .B
  else if s = cfg.offsC then some .C
  else if s = cfg.offsCp then some .Cp
  else if s = cfg.offsD then some .D
  else none

/-- The SYNDROME row of a role (30_encoding.md R84). -/
def roleRow : BlockRole → Instr
  | .A => .roleA
  | .B => .roleB
  | .C => .roleC
  | .Cp => .roleCp
  | .D => .roleD

/-- The decoder over all four formats: total, and rejecting by name. -/
def decode (cfg : Config) (w : TableWord) : Except Reject Instr :=
  if 2 ^ w.format.width ≤ w.bits then .error .tooWide
  else match w.format with
    | .cmd => .ok (decodeCmd (BitVec.ofNat 3 w.bits))
    | .port => match portOfNumber w.bits with
      | some p => .ok (decodePort p)
      | none => .error .noSuchPort
    | .group => .ok (decodeGroupView (BitVec.ofNat 64 w.bits))
    | .syndrome => match roleOfSyndrome cfg (BitVec.ofNat 10 w.bits) with
      | some r => .ok (roleRow r)
      | none => .error .roleNone

/-- The number of a group view: word A, word B (the type above its twelve other bits), words C and D (30_encoding.md R72). -/
def groupBits (a : DataWord) (t : BitVec 4) (x : BitVec 12) (c d : DataWord) : Nat :=
  (a ++ (t ++ x) ++ c ++ d).toNat

/-- The bits of an operation, written from the patterns of spec/opcode_table.json. -/
def encode (cfg : Config) : Instr → TableWord
  | .submitBit0 => ⟨.cmd, 0b010⟩
  | .submitBit1 => ⟨.cmd, 0b011⟩
  | .reset v b => ⟨.cmd, (1#1 ++ v ++ b).toNat⟩
  | .idle b => ⟨.cmd, (0#2 ++ b).toNat⟩
  | .programName => ⟨.port, 0⟩
  | .messageText => ⟨.port, 1⟩
  | .isReady => ⟨.port, 2⟩
  | .groupT0ProgramName a x i c d => ⟨.group, groupBits a 0 (x ++ i) c d⟩
  | .groupT1Ignored a x c d => ⟨.group, groupBits a 1 x c d⟩
  | .groupT2MessageText a x v i c d => ⟨.group, groupBits a 2 (x ++ v ++ i) c d⟩
  | .groupT3Ignored a x c d => ⟨.group, groupBits a 3 x c d⟩
  | .groupT4Ignored a x c d => ⟨.group, groupBits a 4 x c d⟩
  | .groupT5Ignored a x c d => ⟨.group, groupBits a 5 x c d⟩
  | .groupT6Ignored a x c d => ⟨.group, groupBits a 6 x c d⟩
  | .groupT7Ignored a x c d => ⟨.group, groupBits a 7 x c d⟩
  | .groupT8Ignored a x c d => ⟨.group, groupBits a 8 x c d⟩
  | .groupT9Ignored a x c d => ⟨.group, groupBits a 9 x c d⟩
  | .groupT10Ignored a x c d => ⟨.group, groupBits a 10 x c d⟩
  | .groupT11Ignored a x c d => ⟨.group, groupBits a 11 x c d⟩
  | .groupT12Ignored a x c d => ⟨.group, groupBits a 12 x c d⟩
  | .groupT13Ignored a x c d => ⟨.group, groupBits a 13 x c d⟩
  | .groupT14Ignored a x c d => ⟨.group, groupBits a 14 x c d⟩
  | .groupT15ProgramName a x i c d => ⟨.group, groupBits a 15 (x ++ i) c d⟩
  | .roleA => ⟨.syndrome, cfg.offsA.toNat⟩
  | .roleB => ⟨.syndrome, cfg.offsB.toNat⟩
  | .roleC => ⟨.syndrome, cfg.offsC.toNat⟩
  | .roleCp => ⟨.syndrome, cfg.offsCp.toNat⟩
  | .roleD => ⟨.syndrome, cfg.offsD.toNat⟩

/-- The format a table row of so many bits has, in whole bytes: CMD rows have 3 bits, SYNDROME rows 10, GROUP rows 64 and
PORT rows none (30_encoding.md R84, log 8). -/
def formatOfBits : Nat → Option Format
  | 0 => some .port
  | 8 => some .cmd
  | 16 => some .syndrome
  | 64 => some .group
  | _ => none

/-- The row of spec/opcode_table.json that the decoder reads from the number `w` of `nbits` bits, with the table's own
constants, which are the reference values. -/
def decodeTableWord (nbits w : Nat) : Option Instr :=
  match formatOfBits nbits with
  | none => none
  | some f => match decode referenceConfig ⟨f, w⟩ with
    | .ok i => some i
    | .error _ => none

end Sys2Proof
end

