-- ==== Sys2Proof/Machine/State.lean ====
section
/-! DEFINITION. The state of one instance of the core (10_state.md R20), the values it has after power-on and after reset
(R33), and the two ways a step can end other than in a next state. -/

namespace Sys2Proof.Machine

/-- The four values of STATE (10_state.md R24). -/
inductive SyncState where
  | seekingA | expectingB | expectingC | expectingD
deriving DecidableEq, Repr

/-- The three byte spaces of the output store (20_memory.md R50). -/
inductive Space where
  | ps | rt0 | rt1
deriving DecidableEq, Repr

/-- One byte space: (offset, byte) pairs in the canonical form `Memory.wf` of Ops.lean; an unlisted offset holds 0x00, the
value `reset` gives every byte (10_state.md R33, log 19). -/
abbrev Memory := List Host.Cell

/-- What a read operation returns (45_output_store_ops.md R170, R171, R173). -/
inductive Reply where
  | programName (bytes : List Byte)
  | messageText (bytes : List Byte)
  | isReady (ready : BitVec 1)
deriving DecidableEq, Repr

/-- One operation as it is presented to the block (30_encoding.md R80): a command word on the three input lines, or a read
of an output port. Nothing else can be presented (00_scope.md R10). -/
inductive Presented where
  | cmd (c : BitVec 3)
  | read (p : Port)
deriving DecidableEq, Repr

/-- The whole state of one instance. `w` to `ready` are the registers and buffers of 10_state.md R20; `cfg` holds the
parameters, which no operation writes (R30, log 1); `role`, `reply` and `inputs` are the model's own (log 7, 6, 5). -/
structure State where
  /-- The parameters PCM, OFFS and POSW (00_scope.md R7). -/
  cfg : Config
  /-- `W`, the last 26 bits received, bit 0 the newest (R21). -/
  w : Window
  /-- `POS`, the position counter, counted modulo `2^POSW` (R25). -/
  pos : Nat
  /-- `STATE`, the role expected (R24). -/
  state : SyncState
  /-- `SLOT[0..3]`, the captured data words (R22). -/
  slot : Vector DataWord 4
  /-- `PI`, the station identifier (R23). -/
  pi : DataWord
  /-- `PS[0..7]`, the program name (R26). -/
  ps : Memory
  /-- `RT0[0..63]`, message text variant 0 (R27). -/
  rt0 : Memory
  /-- `RT1[0..63]`, message text variant 1 (R27). -/
  rt1 : Memory
  /-- `SEL`, the variant selected last (R28). -/
  sel : BitVec 1
  /-- `READY`, whether the block was armed (R29). -/
  ready : BitVec 1
  /-- The Syndrome Decoder's combinational answer in the last tick; not stored by the hardware (R20, log 7). -/
  role : Option BlockRole
  /-- What the last read operation returned (log 6). -/
  reply : Option Reply
  /-- The operations presented and not yet performed, oldest first (log 5). -/
  inputs : List Presented
deriving DecidableEq, Repr

/-- The faults of the core: none. "The set of synchronous exceptions is empty" (60_exceptions.md R190), so the type has no
constructor and no step can fault. -/
inductive Fault where
deriving DecidableEq, Repr

/-- The reasons a step is refused. -/
inductive Refusal where
  /-- An operation that has no meaning yet; raised by no arm of this model. Safe. -/
  | notModelled (mnemonic : String)
  /-- The configuration is none of this hardware (00_scope.md R8, 93_implementation_defined.md U2: "refuse"); raised by
  `step` alone, before anything is done. Safe. -/
  | illegalConfiguration
deriving DecidableEq, Repr

/-- How an operation ends. -/
abbrev Result := Host.Outcome State Fault Refusal

/-- The state at power-on (10_state.md R33, column "after power-on"): STATE is SEEKING_A and READY is 0, and every other
register and buffer is an arbitrary draw (70_reset_and_hazards.md R210, log 4). -/
def State.powerOn (cfg : Config) (w : Window) (pos : Nat) (slot : Vector DataWord 4) (pi : DataWord)
    (ps rt0 rt1 : Memory) (sel : BitVec 1) : State :=
  { cfg, w, pos, slot, pi, ps, rt0, rt1, sel
    state := .seekingA, ready := 0#1, role := none, reply := none, inputs := [] }

/-- The state right after `reset` (10_state.md R33, column "after `reset`"): STATE, POS, PS, RT0, RT1 and READY as the spec
says. `reset` leaves W, SLOT, PI and SEL at what they were; DESIGN CHOICE: zero, the draw of 95_test_vectors.md, unsafe
(log 3). The parameters are the reference values (PRESUMED, log 1, log 2). -/
def State.reset : State where
  cfg := referenceConfig
  w := 0#26
  pos := 0
  state := .seekingA
  slot := #v[0#16, 0#16, 0#16, 0#16]
  pi := 0#16
  ps := []
  rt0 := []
  rt1 := []
  sel := 0#1
  ready := 1#1
  role := none
  reply := none
  inputs := []

end Sys2Proof.Machine
end

