-- ==== Sys2Proof/Machine/Operands.lean ====
section
/-! DEFINITION. The fields and operand forms of the core (30_encoding.md R71 to R75, R83): the data word of a window, the
bytes of a word, the fields of word B, the byte offsets of the segments, the slot of a role, and the codes. -/

namespace Sys2Proof.Machine

/-- `DATA(w) = w[25:10]` (30_encoding.md R73). -/
def dataOf (w : Window) : DataWord :=
  w.extractLsb' 10 16

/-- `hi(x) = x[15:8]` (00_scope.md R13). -/
def hi (x : DataWord) : Byte :=
  x.extractLsb' 8 8

/-- `lo(x) = x[7:0]` (00_scope.md R13). -/
def lo (x : DataWord) : Byte :=
  x.extractLsb' 0 8

/-- The group view `A || B || C || D` (30_encoding.md R72). -/
def groupView (a b c d : DataWord) : GroupView :=
  a ++ b ++ c ++ d

/-- The group type `B[15:12]` (30_encoding.md R74). -/
def groupType (b : DataWord) : BitVec 4 :=
  b.extractLsb' 12 4

/-- The variant `B[4]` (30_encoding.md R74). -/
def variantOf (b : DataWord) : BitVec 1 :=
  b.extractLsb' 4 1

/-- The message segment index `B[3:0]` (30_encoding.md R74). -/
def rtIndex (b : DataWord) : BitVec 4 :=
  b.extractLsb' 0 4

/-- The program-name segment index `B[1:0]` (30_encoding.md R74). -/
def psIndex (b : DataWord) : BitVec 2 :=
  b.extractLsb' 0 2

/-- The offset `2*i` of a program-name segment, with `i` widened to 4 bits (44_group_decoder.md R151). -/
def psOffset (i : BitVec 2) : Nat :=
  (2#4 * i.setWidth 4).toNat

/-- The offset `4*i` of a message segment, with `i` widened to 6 bits (44_group_decoder.md R152). -/
def rtOffset (i : BitVec 4) : Nat :=
  (4#6 * i.setWidth 6).toNat

/-- The slot a role fills: A 0, B 1, C and Cp 2, D 3 (43_group_assembler.md R140). -/
def slotOf : BlockRole → Fin 4
  | .A => 0
  | .B => 1
  | .C => 2
  | .Cp => 2
  | .D => 3

/-- The code of STATE (30_encoding.md R83, log 24). -/
def stateCode : SyncState → BitVec 2
  | .seekingA => 0
  | .expectingB => 1
  | .expectingC => 2
  | .expectingD => 3

/-- The code of a role, NONE being 7 (30_encoding.md R83, log 24). -/
def roleCode : Option BlockRole → BitVec 3
  | some .A => 0
  | some .B => 1
  | some .C => 2
  | some .Cp => 3
  | some .D => 4
  | none => 7

/-- Whether a state accepts a role at a check point (42_block_synchronizer.md R125). -/
def accepts : SyncState → Option BlockRole → Bool
  | .seekingA, r => r == some .A
  | .expectingB, r => r == some .B
  | .expectingC, r => r == some .C || r == some .Cp
  | .expectingD, r => r == some .D

end Sys2Proof.Machine
end

