-- ==== Sys2Proof/Machine/Flags.lean ====
section
/-! DEFINITION. The two 1-bit flags of the core and every rule that computes them: SEL (10_state.md R28) and READY (R29).
The core has no carry, zero, sign or overflow flag (44_group_decoder.md R157). -/

namespace Sys2Proof.Machine

/-- `SEL <- v`, by every message-text extraction and by nothing else (10_state.md R28). -/
def selectVariant (v : BitVec 1) (s : State) : State :=
  { s with sel := v }

/-- `READY <- 1`, by `reset` and by nothing else; no operation clears it (10_state.md R29, log 17). -/
def arm (s : State) : State :=
  { s with ready := 1#1 }

/-- The space `RT(v)`: RT0 when `v = 0`, RT1 when `v = 1` (00_scope.md R12). -/
def rtSpace (v : BitVec 1) : Space :=
  if v = 0#1 then .rt0 else .rt1

end Sys2Proof.Machine
end

