-- ==== Sys2Proof/Machine/Ops.lean ====
section
/-! DEFINITION. The shared operations over the byte spaces and the registers (20_memory.md R50 to R54, 10_state.md R20 to
R29).

TAKING AN EXCEPTION has no operation here, and neither has the return from one: the core has no exception, interrupt or
trap (60_exceptions.md R190, R192), no state is saved, no vector exists, and there is no trap return (R194). -/

namespace Sys2Proof.Machine

/-! ### One byte space -/

/-- The size of a space in bytes (20_memory.md R50). -/
def Space.size : Space → Nat
  | .ps => 8
  | .rt0 => 64
  | .rt1 => 64

/-- The canonical form: offsets strictly rising, each inside the space, and no entry that holds 0x00. -/
abbrev Memory.wf (size : Nat) (m : Memory) : Prop :=
  m.Pairwise (fun c c' => c.1 < c'.1) ∧ ∀ c ∈ m, c.1 < size ∧ c.2 ≠ 0#8

/-- The byte at an offset; an unlisted offset holds 0x00. -/
def Memory.read : Memory → Nat → Byte
  | [], _ => 0#8
  | (a, b) :: m, k => if a = k then b else Memory.read m k

/-- A space with every entry at an offset taken out. -/
def Memory.erase (m : Memory) (k : Nat) : Memory :=
  m.filter (fun c => c.1 != k)

/-- An entry put before the first one of a higher offset. -/
def Memory.insert : Memory → Nat → Byte → Memory
  | [], k, v => [(k, v)]
  | (a, b) :: m, k, v => if k < a then (k, v) :: (a, b) :: m else (a, b) :: Memory.insert m k v

/-- One byte written; writing 0x00 takes the entry out, so that equal contents are equal data. -/
def Memory.write (m : Memory) (k : Nat) (v : Byte) : Memory :=
  if v = 0#8 then m.erase k else (m.erase k).insert k v

/-- `MemWrite(addr, 2, x)`: `hi(x)` at `addr`, `lo(x)` at `addr + 1` (20_memory.md R51). -/
def Memory.writeWord (m : Memory) (k : Nat) (x : DataWord) : Memory :=
  (m.write k (hi x)).write (k + 1) (lo x)

/-! ### The spaces of a state -/

/-- The contents of a space. -/
def State.space (s : State) : Space → Memory
  | .ps => s.ps
  | .rt0 => s.rt0
  | .rt1 => s.rt1

/-- A space replaced; the three are disjoint (20_memory.md R50). -/
def State.setSpace (s : State) (sp : Space) (m : Memory) : State :=
  match sp with
  | .ps => { s with ps := m }
  | .rt0 => { s with rt0 := m }
  | .rt1 => { s with rt1 := m }

/-- One byte of a space. -/
def readByte (s : State) (sp : Space) (k : Nat) : Byte :=
  (s.space sp).read k

/-- `MemRead(addr, n)`: the `n` bytes from an offset up (00_scope.md R12). -/
def memRead (s : State) (sp : Space) (k n : Nat) : List Byte :=
  (List.range n).map (fun j => readByte s sp (k + j))

/-- `MemWrite(addr, 2, x)` in a space (00_scope.md R12). -/
def memWriteWord (sp : Space) (k : Nat) (x : DataWord) (s : State) : State :=
  s.setSpace sp ((s.space sp).writeWord k x)

/-- All bytes of the three spaces set to 0x00 (45_output_store_ops.md R172); nothing is listed then. -/
def clearBuffers (s : State) : State :=
  { s with ps := [], rt0 := [], rt1 := [] }

/-! ### The registers -/

/-- `((W << 1) | zext_27(b))[25:0]`: the old bit 25 is discarded (41_bit_window.md R110). -/
def shifted (w : Window) (b : BitVec 1) : Window :=
  ((w.setWidth 27 <<< 1) ||| b.setWidth 27).setWidth 26

/-- The shift of the Bit Window (41_bit_window.md R110). -/
def shift (b : BitVec 1) (s : State) : State :=
  { s with w := shifted s.w b }

/-- `POS <- (POS + 1) mod 2^POSW` (41_bit_window.md R111). -/
def count (s : State) : State :=
  { s with pos := (s.pos + 1) % 2 ^ s.cfg.posw }

/-- The hold of SEEKING_A: POS does not pass 26 (42_block_synchronizer.md R121, log 12). -/
def holdPos (s : State) : State :=
  { s with pos := if 26 < s.pos then 26 else s.pos }

/-- The Syndrome Decoder's answer (40_syndrome_decoder.md R101, log 7). -/
def reportRole (r : Option BlockRole) (s : State) : State :=
  { s with role := r }

/-- `SLOT[k] <- DATA(W)` (43_group_assembler.md R141). -/
def capture (k : Fin 4) (s : State) : State :=
  { s with slot := s.slot.set k (dataOf s.w) }

/-- `STATE <- q` and `POS <- 0`, the control transfer of the core (00_scope.md R12). -/
def enter (q : SyncState) (s : State) : State :=
  { s with state := q, pos := 0 }

/-- `PI <- A` (44_group_decoder.md R151, R152). -/
def recordPi (a : DataWord) (s : State) : State :=
  { s with pi := a }

/-- What a read returns to the reader (log 6). -/
def answer (r : Reply) (s : State) : State :=
  { s with reply := some r }

/-- The operations presented to the block from here on (log 5). -/
def State.present (xs : List Presented) (s : State) : State :=
  { s with inputs := xs }

/-! ### The output ports -/

/-- Bytes as one number, the first the most significant. -/
def bytesToNat (bs : List Byte) : Nat :=
  bs.foldl (fun n b => n * 256 + b.toNat) 0

/-- `ps_out`: `PS[0..7]`, `PS[0]` in the most significant byte (30_encoding.md R80). -/
def psOut (s : State) : BitVec 64 :=
  BitVec.ofNat 64 (bytesToNat (memRead s .ps 0 8))

/-- `rt_out`: the space SEL selects, byte 0 in the most significant byte (30_encoding.md R80). -/
def rtOut (s : State) : BitVec 512 :=
  BitVec.ofNat 512 (bytesToNat (memRead s (rtSpace s.sel) 0 64))

/-- `ready_out` (30_encoding.md R80). -/
def readyOut (s : State) : BitVec 1 :=
  s.ready

end Sys2Proof.Machine
end

