-- ==== Sys2Proof/Machine/Group.lean ====
section
/-! DEFINITION. The Group Decoder and its two field extractors (44_group_decoder.md R150 to R154), and the meanings of the
sixteen GROUP rows. The writes of an extraction stand in the order of R155; they take effect together (R55, log 10). -/

namespace Sys2Proof.Machine

/-- `extract_ps(A, B, D)` with the index `B[1:0]` (44_group_decoder.md R151). -/
def extractPs (a : DataWord) (i : BitVec 2) (d : DataWord) (s : State) : State :=
  memWriteWord .ps (psOffset i) d (recordPi a s)

/-- `extract_rt(A, B, C, D)` with the variant `B[4]` and the index `B[3:0]` (44_group_decoder.md R152). -/
def extractRt (a : DataWord) (v : BitVec 1) (i : BitVec 4) (c d : DataWord) (s : State) : State :=
  selectVariant v
    (memWriteWord (rtSpace v) (rtOffset i + 2) d
      (memWriteWord (rtSpace v) (rtOffset i) c (recordPi a s)))

/-- An ignored group: "received, assembled, and discarded without mutating output" (44_group_decoder.md R153). -/
def discardGroup (s : State) : State :=
  s

/-- `decode_group(A, B, C, D)`: dispatch on the type `B[15:12]` (44_group_decoder.md R150). -/
def decodeGroup (a b c d : DataWord) (s : State) : State :=
  if groupType b = 0#4 ∨ groupType b = 15#4 then extractPs a (psIndex b) d s
  else if groupType b = 2#4 then extractRt a (variantOf b) (rtIndex b) c d s
  else discardGroup s

/-- The Group Decoder on the four slots (43_group_assembler.md R142). -/
def decodeSlots (s : State) : State :=
  decodeGroup s.slot[0] s.slot[1] s.slot[2] s.slot[3] s

/-- GROUP_T0_PROGRAM_NAME (R151). -/
def execGroupT0ProgramName (a : DataWord) (i : BitVec 2) (d : DataWord) (s : State) : Result :=
  .next (extractPs a i d s)

/-- GROUP_T1_IGNORED (R153). -/
def execGroupT1Ignored (s : State) : Result :=
  .next (discardGroup s)

/-- GROUP_T2_MESSAGE_TEXT (R152). -/
def execGroupT2MessageText (a : DataWord) (v : BitVec 1) (i : BitVec 4) (c d : DataWord) (s : State) : Result :=
  .next (extractRt a v i c d s)

/-- GROUP_T3_IGNORED (R153). -/
def execGroupT3Ignored (s : State) : Result :=
  .next (discardGroup s)

/-- GROUP_T4_IGNORED (R153). -/
def execGroupT4Ignored (s : State) : Result :=
  .next (discardGroup s)

/-- GROUP_T5_IGNORED (R153). -/
def execGroupT5Ignored (s : State) : Result :=
  .next (discardGroup s)

/-- GROUP_T6_IGNORED (R153). -/
def execGroupT6Ignored (s : State) : Result :=
  .next (discardGroup s)

/-- GROUP_T7_IGNORED (R153). -/
def execGroupT7Ignored (s : State) : Result :=
  .next (discardGroup s)

/-- GROUP_T8_IGNORED (R153). -/
def execGroupT8Ignored (s : State) : Result :=
  .next (discardGroup s)

/-- GROUP_T9_IGNORED (R153). -/
def execGroupT9Ignored (s : State) : Result :=
  .next (discardGroup s)

/-- GROUP_T10_IGNORED (R153). -/
def execGroupT10Ignored (s : State) : Result :=
  .next (discardGroup s)

/-- GROUP_T11_IGNORED (R153). -/
def execGroupT11Ignored (s : State) : Result :=
  .next (discardGroup s)

/-- GROUP_T12_IGNORED (R153). -/
def execGroupT12Ignored (s : State) : Result :=
  .next (discardGroup s)

/-- GROUP_T13_IGNORED (R153). -/
def execGroupT13Ignored (s : State) : Result :=
  .next (discardGroup s)

/-- GROUP_T14_IGNORED (R153). -/
def execGroupT14Ignored (s : State) : Result :=
  .next (discardGroup s)

/-- GROUP_T15_PROGRAM_NAME (R151). -/
def execGroupT15ProgramName (a : DataWord) (i : BitVec 2) (d : DataWord) (s : State) : Result :=
  .next (extractPs a i d s)

end Sys2Proof.Machine
end

