-- ==== Sys2Proof/Machine/Syndrome.lean ====
section
/-! DEFINITION. The Syndrome Decoder (40_syndrome_decoder.md R100, R101) and the meanings of the five SYNDROME rows. It is
pure: a row's effect is the answer it gives, on the combinational output `role`, and no register changes (R101 "State
written: none", R103). -/

namespace Sys2Proof.Machine

/-- `PCM[i]`, and 0 past the table's end, where no rule looks. -/
def pcmEntry (cfg : Config) (i : Nat) : Syndrome :=
  if h : i < 26 then cfg.pcm[i] else 0#10

/-- The loop of R100 over the window bits below `n`. -/
def synBelow (cfg : Config) (w : Window) : Nat → Syndrome
  | 0 => 0#10
  | n + 1 => if w.getLsbD n then synBelow cfg w n ^^^ pcmEntry cfg n else synBelow cfg w n

/-- `SYN(w)` (40_syndrome_decoder.md R100). -/
def syn (cfg : Config) (w : Window) : Syndrome :=
  synBelow cfg w 26

/-- `ROLE(w)` (40_syndrome_decoder.md R101), with `none` for NONE. -/
def roleOf (cfg : Config) (w : Window) : Option BlockRole :=
  roleOfSyndrome cfg (syn cfg w)

/-- The Syndrome Decoder of a tick: it answers for the window as it now stands (42_block_synchronizer.md R120). -/
def driveRole (s : State) : State :=
  reportRole (roleOf s.cfg s.w) s

/-- ROLE_A (R101): the answer is A. -/
def execRoleA (s : State) : Result :=
  .next (reportRole (some .A) s)

/-- ROLE_B (R101): the answer is B. -/
def execRoleB (s : State) : Result :=
  .next (reportRole (some .B) s)

/-- ROLE_C (R101): the answer is C. -/
def execRoleC (s : State) : Result :=
  .next (reportRole (some .C) s)

/-- ROLE_CP (R101): the answer is Cp. -/
def execRoleCp (s : State) : Result :=
  .next (reportRole (some .Cp) s)

/-- ROLE_D (R101): the answer is D. -/
def execRoleD (s : State) : Result :=
  .next (reportRole (some .D) s)

end Sys2Proof.Machine
end

