-- ==== Sys2Proof/Machine/Synchronizer.lean ====
section
/-! DEFINITION. The Block Synchronizer and the operation `submit_bit` (42_block_synchronizer.md R120 to R125). The arms read
POS after the count and the role of the updated window; exactly one arm runs in a tick. -/

namespace Sys2Proof.Machine

/-- `seek_a(r)` (R121): hold POS at 26, and from there test every window. -/
def seekA (s : State) : State :=
  if 26 ≤ s.pos then
    if accepts .seekingA s.role then enter .expectingB (capture 0 (holdPos s)) else holdPos s
  else s

/-- `expect_b(r)` (R122): one test at 26; a mismatch leaves POS, which is the stall (log 11). -/
def expectB (s : State) : State :=
  if s.pos = 26 then
    if accepts .expectingB s.role then enter .expectingC (capture 1 s) else s
  else s

/-- `expect_c(r)` (R123): one test at 26, POS to 0 whatever the outcome; a mismatch falls back to EXPECTING_B (log 13). -/
def expectC (s : State) : State :=
  if s.pos = 26 then
    if accepts .expectingC s.role then enter .expectingD (capture 2 s) else enter .expectingB s
  else s

/-- `expect_d(r)` (R124): one test at 26; a match completes the group, which is decoded in the same tick. -/
def expectD (s : State) : State :=
  if s.pos = 26 then
    if accepts .expectingD s.role then decodeSlots (enter .seekingA (capture 3 s)) else s
  else s

/-- Window, counter and Syndrome Decoder: what every tick does before the Block Synchronizer (R120). -/
def receive (b : BitVec 1) (s : State) : State :=
  driveRole (count (shift b s))

/-- The arm of a state (R120). -/
def synchronize : SyncState → State → State
  | .seekingA => seekA
  | .expectingB => expectB
  | .expectingC => expectC
  | .expectingD => expectD

/-- `submit_bit(b)`: the arm is that of STATE as it was when the operation began (R120). -/
def submitBit (b : BitVec 1) (s : State) : State :=
  synchronize s.state (receive b s)

end Sys2Proof.Machine
end

