-- ==== Sys2Proof/Machine/Commands.lean ====
section
/-! DEFINITION. The meanings of the four CMD rows (30_encoding.md R80). -/

namespace Sys2Proof.Machine

/-- SUBMIT_BIT_0: `submit_bit 0` (42_block_synchronizer.md R120). -/
def execSubmitBit0 (s : State) : Result :=
  .next (submitBit 0#1 s)

/-- SUBMIT_BIT_1: `submit_bit 1` (42_block_synchronizer.md R120). -/
def execSubmitBit1 (s : State) : Result :=
  .next (submitBit 1#1 s)

/-- RESET (45_output_store_ops.md R172): buffers to zero, SEEKING_A at position 0, READY set; W, SLOT, PI and SEL stay
(log 16). A bit presented in the same step is dropped (60_exceptions.md R193, log 15). -/
def execReset (s : State) : Result :=
  .next (arm (enter .seekingA (clearBuffers s)))

/-- IDLE: no state changes (30_encoding.md R80). -/
def execIdle (s : State) : Result :=
  .next s

end Sys2Proof.Machine
end

