-- ==== Sys2Proof/Machine/Ports.lean ====
section
/-! DEFINITION. The meanings of the three PORT rows: the reads of the output store (45_output_store_ops.md R170, R171,
R173). A read writes no register and no buffer; the value it returns is handed to the reader in `reply` (log 6). -/

namespace Sys2Proof.Machine

/-- PROGRAM_NAME: `MemRead(PS + 0, 8)` (45_output_store_ops.md R170). -/
def execProgramName (s : State) : Result :=
  .next (answer (.programName (memRead s .ps 0 8)) s)

/-- MESSAGE_TEXT: `MemRead(RT(SEL) + 0, 64)` (45_output_store_ops.md R171). -/
def execMessageText (s : State) : Result :=
  .next (answer (.messageText (memRead s (rtSpace s.sel) 0 64)) s)

/-- IS_READY: READY (45_output_store_ops.md R173). -/
def execIsReady (s : State) : Result :=
  .next (answer (.isReady s.ready) s)

end Sys2Proof.Machine
end

