-- ==== Sys2Proof/Machine/Dispatch.lean ====
section
/-! DEFINITION. One arm per row of spec/opcode_table.json, each one call of its meaning. The operands an arm leaves out are
the bits the spec ignores. -/

namespace Sys2Proof.Machine

def exec (i : Instr) (s : State) : Host.Outcome State Fault Refusal :=
  match i with
  | .submitBit0 => Sys2Proof.Machine.execSubmitBit0 s
  | .submitBit1 => Sys2Proof.Machine.execSubmitBit1 s
  | .reset _ _ => Sys2Proof.Machine.execReset s
  | .idle _ => Sys2Proof.Machine.execIdle s
  | .programName => Sys2Proof.Machine.execProgramName s
  | .messageText => Sys2Proof.Machine.execMessageText s
  | .isReady => Sys2Proof.Machine.execIsReady s
  | .groupT0ProgramName a _ seg _ d => Sys2Proof.Machine.execGroupT0ProgramName a seg d s
  | .groupT1Ignored _ _ _ _ => Sys2Proof.Machine.execGroupT1Ignored s
  | .groupT2MessageText a _ v seg c d => Sys2Proof.Machine.execGroupT2MessageText a v seg c d s
  | .groupT3Ignored _ _ _ _ => Sys2Proof.Machine.execGroupT3Ignored s
  | .groupT4Ignored _ _ _ _ => Sys2Proof.Machine.execGroupT4Ignored s
  | .groupT5Ignored _ _ _ _ => Sys2Proof.Machine.execGroupT5Ignored s
  | .groupT6Ignored _ _ _ _ => Sys2Proof.Machine.execGroupT6Ignored s
  | .groupT7Ignored _ _ _ _ => Sys2Proof.Machine.execGroupT7Ignored s
  | .groupT8Ignored _ _ _ _ => Sys2Proof.Machine.execGroupT8Ignored s
  | .groupT9Ignored _ _ _ _ => Sys2Proof.Machine.execGroupT9Ignored s
  | .groupT10Ignored _ _ _ _ => Sys2Proof.Machine.execGroupT10Ignored s
  | .groupT11Ignored _ _ _ _ => Sys2Proof.Machine.execGroupT11Ignored s
  | .groupT12Ignored _ _ _ _ => Sys2Proof.Machine.execGroupT12Ignored s
  | .groupT13Ignored _ _ _ _ => Sys2Proof.Machine.execGroupT13Ignored s
  | .groupT14Ignored _ _ _ _ => Sys2Proof.Machine.execGroupT14Ignored s
  | .groupT15ProgramName a _ seg _ d => Sys2Proof.Machine.execGroupT15ProgramName a seg d s
  | .roleA => Sys2Proof.Machine.execRoleA s
  | .roleB => Sys2Proof.Machine.execRoleB s
  | .roleC => Sys2Proof.Machine.execRoleC s
  | .roleCp => Sys2Proof.Machine.execRoleCp s
  | .roleD => Sys2Proof.Machine.execRoleD s

end Sys2Proof.Machine
end

