-- ==== Sys2Proof/Machine/Stimulus.lean ====
section
/-! DEFINITION. The stimulus notation of 30_encoding.md R81 and R82: how a program of bits, blocks, groups and reads becomes
the list of operations presented to the block. A block's check bits are solved from the core's own tables (R82). -/

namespace Sys2Proof.Machine

/-- The command word of `submit_bit b` (30_encoding.md R80). -/
def bitCommand (b : BitVec 1) : Presented :=
  .cmd (0b01#2 ++ b)

/-- The command word of `reset` with the ignored bits zero (30_encoding.md R80). -/
def resetCommand : Presented :=
  .cmd 0b100#3

/-- `OFFS[r]`. -/
def offs (cfg : Config) : BlockRole → Syndrome
  | .A => cfg.offsA
  | .B => cfg.offsB
  | .C => cfg.offsC
  | .Cp => cfg.offsCp
  | .D => cfg.offsD

/-- A syndrome and the check bits that make it, reduced by a basis of such pairs: each basis syndrome is subtracted where
its leading bit stands. -/
def xorReduce (basis : List (Syndrome × BitVec 10)) (p : Syndrome × BitVec 10) : Syndrome × BitVec 10 :=
  basis.foldl (fun p b => if p.1 ^^^ b.1 < p.1 then (p.1 ^^^ b.1, p.2 ^^^ b.2) else p) p

/-- A basis of the syndromes of the check bits, from `PCM[0..9]` (30_encoding.md R82). -/
def checkBasis (cfg : Config) : Nat → List (Syndrome × BitVec 10)
  | 0 => []
  | n + 1 =>
    let basis := checkBasis cfg n
    let p := xorReduce basis (pcmEntry cfg n, 1#10 <<< n)
    if p.1 = 0#10 then basis else basis ++ [p]

/-- The check bits `c` with `SYN(c) = t`, where there are such (30_encoding.md R82, log 26). -/
def checkBits (cfg : Config) (t : Syndrome) : BitVec 10 :=
  (xorReduce (checkBasis cfg 10) (t, 0#10)).2

/-- The 26-bit word with data word `d` and syndrome `t`: `(d << 10) | c` with `SYN(c) = t ^ SYN(d << 10)` (R82). -/
def windowWith (cfg : Config) (t : Syndrome) (d : DataWord) : Window :=
  d ++ checkBits cfg (t ^^^ syn cfg (d ++ 0#10))

/-- The word of `BLOCK r d` (30_encoding.md R82). -/
def blockWord (cfg : Config) (r : BlockRole) (d : DataWord) : Window :=
  windowWith cfg (offs cfg r) d

/-- The bits of a window in the order of arrival, bit 25 first (20_memory.md R52, the line `RAW`). -/
def bitsOf (w : Window) : List (BitVec 1) :=
  (List.range 26).map (fun k => w.extractLsb' (25 - k) 1)

/-- The lines of a stimulus program (30_encoding.md R81). -/
inductive Line where
  | reset
  | bit (b : BitVec 1)
  | bits (bs : List (BitVec 1))
  | raw (w : Window)
  | block (r : BlockRole) (d : DataWord)
  | group (a b c d : DataWord)
  | groupP (a b c d : DataWord)
  | ps
  | rt
  | rdy
deriving DecidableEq, Repr

/-- The operations a line stands for (30_encoding.md R81). -/
def expandLine (cfg : Config) : Line → List Presented
  | .reset => [resetCommand]
  | .bit b => [bitCommand b]
  | .bits bs => bs.map bitCommand
  | .raw w => (bitsOf w).map bitCommand
  | .block r d => (bitsOf (blockWord cfg r d)).map bitCommand
  | .group a b c d =>
    (bitsOf (blockWord cfg .A a) ++ bitsOf (blockWord cfg .B b) ++ bitsOf (blockWord cfg .C c)
      ++ bitsOf (blockWord cfg .D d)).map bitCommand
  | .groupP a b c d =>
    (bitsOf (blockWord cfg .A a) ++ bitsOf (blockWord cfg .B b) ++ bitsOf (blockWord cfg .Cp c)
      ++ bitsOf (blockWord cfg .D d)).map bitCommand
  | .ps => [.read .psOut]
  | .rt => [.read .rtOut]
  | .rdy => [.read .readyOut]

/-- A stimulus program, top to bottom (30_encoding.md R81). -/
def expandProgram (cfg : Config) (ls : List Line) : List Presented :=
  ls.flatMap (expandLine cfg)

/-- A state in which all but the last bit of a window has arrived and that bit is the next operation presented. -/
def stageWindow (word : Window) (s : State) : State :=
  { s with w := word >>> 1, inputs := bitCommand (word.extractLsb' 0 1) :: s.inputs }

/-- A state in which the next operation presented is the last bit of a group: its words A, B, C are in their slots and its
D block is about to end (log 9). -/
def stageGroup (g : GroupView) (s : State) : State :=
  stageWindow (blockWord s.cfg .D (field g 0 16))
    { s with
      state := .expectingD
      pos := 25
      slot := #v[field g 48 16, field g 32 16, field g 16 16, s.slot[3]] }

end Sys2Proof.Machine
end

