-- ==== Sys2Proof/Machine/Step.lean ====
section
/-! DEFINITION. One step: one operation, performed whole (20_memory.md R55, R58, 70_reset_and_hazards.md R222). -/

namespace Sys2Proof.Machine

/-- The operation that a presented one is (30_encoding.md R80). -/
def decodePresented : Presented → Instr
  | .cmd c => decodeCmd c
  | .read p => decodePort p

/-- The operation presented next, and the state that has it no more. With nothing presented the command lines are low,
which is IDLE (log 5). -/
def fetch (s : State) : Instr × State :=
  match s.inputs with
  | [] => (decodeCmd 0b000#3, s)
  | x :: rest => (decodePresented x, s.present rest)

/-- One step of a legal configuration performs the operation presented next; any other configuration is refused
(00_scope.md R8, 93_implementation_defined.md U2, log 20). -/
def step (s : State) : Host.Outcome State Fault Refusal :=
  if s.cfg.wellFormed then exec (fetch s).1 (fetch s).2 else .refused .illegalConfiguration

/-- The state in which the very next step runs the row that the table word stands for (log 9). A CMD or PORT word is
presented. A SYNDROME word is laid in the window, all but its last bit, so that the next tick classifies it. A GROUP word
is laid in the slots and the window, so that the next tick completes the group and decodes it. -/
def State.withFetchWord (s : State) (nbits w : Nat) : State :=
  match formatOfBits nbits with
  | some .cmd => s.present (.cmd (BitVec.ofNat 3 w) :: s.inputs)
  | some .port => match portOfNumber w with
    | some p => s.present (.read p :: s.inputs)
    | none => s
  | some .syndrome => stageWindow (windowWith s.cfg (BitVec.ofNat 10 w) 0#16) s
  | some .group => stageGroup (BitVec.ofNat 64 w) s
  | none => s

end Sys2Proof.Machine
end

