-- ==== Sys2Proof/Safety.lean ====
section
/-! DEFINITION. The terms in which claims about the machine are stated: the invariant of 10_state.md R31 and R25, runs over
a list of bits, and what it is for two states to differ only in what `reset` leaves behind. -/

namespace Sys2Proof.Machine

/-- What holds between operations from the first `reset` on: the configuration is legal, POS lies in the range of its
STATE (10_state.md R25, R31) and the three byte spaces are in canonical form. In EXPECTING_C the range is that of R25 less
26 itself: POS is set to 0 in the tick in which it reaches 26 (42_block_synchronizer.md R123). -/
structure State.Inv (s : State) : Prop where
  configLegal : s.cfg.wellFormed = true
  posInWidth : s.pos < 2 ^ s.cfg.posw
  posSeeking : s.state = .seekingA → s.pos ≤ 26
  posExpectingC : s.state = .expectingC → s.pos < 26
  psCanonical : s.ps.wf Space.ps.size
  rt0Canonical : s.rt0.wf Space.rt0.size
  rt1Canonical : s.rt1.wf Space.rt1.size

/-- The operation `submit_bit b` (00_scope.md R10). -/
def bitInstr (b : BitVec 1) : Instr :=
  if b = 1#1 then .submitBit1 else .submitBit0

/-- `reset` is the operation presented next: bit 2 of the command word (30_encoding.md R80). -/
def nextIsReset (s : State) : Prop :=
  ∃ c rest, s.inputs = .cmd c :: rest ∧ c.getLsbD 2 = true

/-- `submit_bit b` is the operation presented next (30_encoding.md R80). -/
def nextIsBit (b : BitVec 1) (s : State) : Prop :=
  ∃ rest, s.inputs = bitCommand b :: rest

/-- The window after the bits of a list, the first received first (41_bit_window.md R110). -/
def windowAfter (w : Window) (bs : List (BitVec 1)) : Window :=
  bs.foldl (fun w b => (w <<< 1) ||| b.setWidth 26) w

/-- The run in which the bits of a list, and nothing else, are presented: one step for each. -/
def afterBits (s : State) (bs : List (BitVec 1)) : Result :=
  Host.Core.run Sys2Proof.core bs.length (s.present (bs.map bitCommand))

/-- `POS` after the count of a tick (41_bit_window.md R111). -/
def posNext (s : State) : Nat :=
  (s.pos + 1) % 2 ^ s.cfg.posw

/-- The window after the shift of a tick that receives `b`, as R110 writes it (41_bit_window.md). -/
def wNext (s : State) (b : BitVec 1) : Window :=
  (s.w <<< 1) ||| b.setWidth 26

/-- The role a tick that receives `b` finds (42_block_synchronizer.md R120). -/
def roleNext (s : State) (b : BitVec 1) : Option BlockRole :=
  roleOf s.cfg (wNext s b)

/-- The tick that receives `b` captures slot `k`: the column "`SLOT` written" of 42_block_synchronizer.md R128, each row at a
check point of R127 with a role that R125 accepts. -/
def CapturesSlot (s : State) (b : BitVec 1) (k : Fin 4) : Prop :=
  (s.state = .seekingA ∧ 26 ≤ posNext s ∧ roleNext s b = some .A ∧ k = 0) ∨
  (s.state = .expectingB ∧ posNext s = 26 ∧ roleNext s b = some .B ∧ k = 1) ∨
  (s.state = .expectingC ∧ posNext s = 26 ∧ (roleNext s b = some .C ∨ roleNext s b = some .Cp) ∧ k = 2) ∨
  (s.state = .expectingD ∧ posNext s = 26 ∧ roleNext s b = some .D ∧ k = 3)

/-- Two states after `reset` that differ at most in what `reset` leaves alone, W, SLOT, PI and SEL (10_state.md R33), and in
the combinational role. -/
structure AgreeAfterReset (s t : State) : Prop where
  atReset : s.state = .seekingA ∧ s.pos = 0 ∧ s.ps = [] ∧ s.rt0 = [] ∧ s.rt1 = []
  otherwiseEqual : t = { s with w := t.w, slot := t.slot, pi := t.pi, sel := t.sel, role := t.role }

end Sys2Proof.Machine
end

