-- ==== Sys2Proof/Certificates/Slice0/Obligations.lean ====
section
/-! DEFINITION. The statements about the machine, each formalising what the docstring cites. A statement marked as resting
on a decision or an inference of the spec, or on the model's own choice, names the log entry. -/

open Sys2Proof Sys2Proof.Machine

/-- O1. Decode and encode agree on all 28 rows, operands at every value (30_encoding.md R80, R84). The port numbers are
the model's choice (log 8). -/
def Obligations.DecodeOfEncodeIsTheOperation : Prop :=
  ∀ (cfg : Config) (i : Instr), i.wellFormed cfg = true → decode cfg (encode cfg i) = .ok i

/-- O2. Each word has one meaning (30_encoding.md R84); the port numbers are the model's choice (log 8). -/
def Obligations.EncodeOfDecodeIsTheWord : Prop :=
  ∀ (cfg : Config) (w : TableWord) (i : Instr), decode cfg w = .ok i → encode cfg i = w

/-- O3. A sanity statement on a few words of each format (30_encoding.md R80, R84). The two syndromes are reference
values (log 1). -/
def Obligations.TableWordsDecodeToTheirRows : Prop :=
  decodeTableWord 8 0b010 = some .submitBit0 ∧
  decodeTableWord 8 0b011 = some .submitBit1 ∧
  decodeTableWord 8 0b101 = some (.reset 0#1 1#1) ∧
  decodeTableWord 8 0b001 = some (.idle 1#1) ∧
  decodeTableWord 64 0xAAAAF00243444546 = some (.groupT15ProgramName 0xAAAA#16 0#10 2#2 0x4344#16 0x4546#16) ∧
  decodeTableWord 64 0xAAAA0FFF43444546 = some (.groupT0ProgramName 0xAAAA#16 0x3FF#10 3#2 0x4344#16 0x4546#16) ∧
  decodeTableWord 64 0x1234201548692021 =
    some (.groupT2MessageText 0x1234#16 0#7 1#1 5#4 0x4869#16 0x2021#16) ∧
  decodeTableWord 64 0xBEEF400011112222 = some (.groupT4Ignored 0xBEEF#16 0#12 0x1111#16 0x2222#16) ∧
  decodeTableWord 16 0x3CC = some .roleCp ∧
  decodeTableWord 16 0x258 = some .roleD

/-- O4. One step performs one presented operation (20_memory.md R58, 30_encoding.md R80). That an empty list is IDLE is
the model's choice (log 5), as are the port numbers (log 8). -/
def Obligations.StepPerformsThePresentedOperation : Prop :=
  ∀ s : State, s.cfg.wellFormed = true →
    (∀ (c : BitVec 3) (rest : List Presented) (i : Instr),
      s.inputs = .cmd c :: rest → decode s.cfg ⟨.cmd, c.toNat⟩ = .ok i → step s = exec i (s.present rest)) ∧
    (∀ (p : Port) (n : Nat) (rest : List Presented) (i : Instr),
      s.inputs = .read p :: rest → portOfNumber n = some p → decode s.cfg ⟨.port, n⟩ = .ok i →
        step s = exec i (s.present rest)) ∧
    (s.inputs = [] → step s = exec (.idle 0#1) s)

/-- O5. 00_scope.md R7 and R8: "a model refuses it" (93_implementation_defined.md U2). That the refusal is made at every
step is the model's rendering (log 20). -/
def Obligations.StepRefusesExactlyIllegalConfigurations : Prop :=
  ∀ s : State, step s = .refused .illegalConfiguration ↔
    (¬ [s.cfg.offsA, s.cfg.offsB, s.cfg.offsC, s.cfg.offsCp, s.cfg.offsD].Nodup ∨ s.cfg.posw < 5)

/-- O6. 60_exceptions.md R190 and 42_block_synchronizer.md R126, inferences of the spec: every operation has a next
state in every state. -/
def Obligations.EveryOperationCompletes : Prop :=
  ∀ s : State, s.cfg.wellFormed = true → ∃ t, step s = .next t

/-- O7. 10_state.md R30 for PCM and OFFS; the counter width POSW is a parameter by 00_scope.md R7. That every operation
has a next state is the spec's inference 60_exceptions.md R190, and the field `cfg` that holds the parameters is the
model's rendering (log 1). -/
def Obligations.ParametersAreNeverWritten : Prop :=
  (∀ (i : Instr) (s : State), ∃ t, exec i s = .next t ∧ t.cfg = s.cfg) ∧
  (∀ s t : State, step s = .next t → t.cfg = s.cfg)

/-- O8. 10_state.md R31 (a) and (b), R25, inferences of the spec; and the canonical form of the model's buffers (log
19). -/
def Obligations.StepKeepsTheInvariant : Prop :=
  ∀ s t : State, s.Inv → step s = .next t → t.Inv

/-- O9. 10_state.md R31, R33. The parameters of this state are reference values (log 1, 2). -/
def Obligations.StateAfterResetHasTheInvariant : Prop :=
  State.reset.Inv

/-- O10. 70_reset_and_hazards.md R210: one `reset` makes every later state one that the rules describe, whatever
power-on left. -/
def Obligations.ResetEstablishesTheInvariant : Prop :=
  ∀ (s : State) (v b : BitVec 1), s.cfg.wellFormed = true →
    ∃ t, exec (.reset v b) s = .next t ∧ t.Inv

/-- O11. 10_state.md R33: the rows the spec gives a value. The values of W, SLOT, PI and SEL in the state after reset
are the model's (log 3) and nothing is said of them here. READY rests on the spec's decision D12 (log 17). -/
def Obligations.StateAfterResetHoldsTheResetValues : Prop :=
  (∀ (cfg : Config) (w : Window) (pos : Nat) (slot : Vector DataWord 4) (pi : DataWord) (ps rt0 rt1 : Memory)
      (sel : BitVec 1),
    (State.powerOn cfg w pos slot pi ps rt0 rt1 sel).state = .seekingA ∧
    (State.powerOn cfg w pos slot pi ps rt0 rt1 sel).ready = 0#1) ∧
  State.reset.state = .seekingA ∧ State.reset.pos = 0 ∧ State.reset.ready = 1#1 ∧
  ∀ (sp : Space) (k : Nat), readByte State.reset sp k = 0#8

/-- O12. 41_bit_window.md R110, for SUBMIT_BIT_0 and SUBMIT_BIT_1 in every state of the synchroniser. -/
def Obligations.EveryBitShiftsTheWindow : Prop :=
  ∀ (s : State) (b : BitVec 1), ∃ t, exec (bitInstr b) s = .next t ∧
    t.w = (s.w <<< 1) ||| b.setWidth 26 ∧
    t.w.getLsbD 0 = b.getLsbD 0 ∧ (∀ k, k < 25 → t.w.getLsbD (k + 1) = s.w.getLsbD k)

/-- O13. 20_memory.md R52 and the last inference of 41_bit_window.md R110. -/
def Obligations.BitsOfAWordFillTheWindow : Prop :=
  ∀ (s : State) (word : Window), s.cfg.wellFormed = true →
    ∃ t, afterBits s (bitsOf word) = .next t ∧ t.w = word

/-- O14. 30_encoding.md R73. -/
def Obligations.DataWordIsTheOlderSixteenBits : Prop :=
  ∀ w : Window, dataOf w = (w >>> 10).setWidth 16 ∧ ∀ k, k < 16 → (dataOf w).getLsbD k = w.getLsbD (k + 10)

/-- O15. 40_syndrome_decoder.md R103, an inference of the spec from R100. -/
def Obligations.SyndromeIsLinear : Prop :=
  ∀ (cfg : Config), syn cfg 0#26 = 0#10 ∧ ∀ a b : Window, syn cfg (a ^^^ b) = syn cfg a ^^^ syn cfg b

/-- O16. 40_syndrome_decoder.md R100, corner case; which entry belongs to which bit is the spec's decision D3 (log 21).
-/
def Obligations.SyndromeOfOneBitIsItsTableEntry : Prop :=
  ∀ (cfg : Config) (i : Fin 26), syn cfg (1#26 <<< i.val) = cfg.pcm[i]

/-- O17. 40_syndrome_decoder.md R101 and R102. -/
def Obligations.RoleIsTheConstantThatMatches : Prop :=
  ∀ (cfg : Config) (w : Window), cfg.offsDistinct = true →
    (∀ r, roleOf cfg w = some r ↔ syn cfg w = offs cfg r) ∧
    (roleOf cfg w = none ↔ ∀ r, syn cfg w ≠ offs cfg r) ∧
    (∀ r r', syn cfg w = offs cfg r → syn cfg w = offs cfg r' → r = r')

/-- O18. 40_syndrome_decoder.md R101 "State written: none". That the answer is held in `role` is the model's rendering
(log 7). -/
def Obligations.RoleRowsAnswerAndWriteNoRegister : Prop :=
  ∀ s : State,
    exec .roleA s = .next { s with role := some .A } ∧
    exec .roleB s = .next { s with role := some .B } ∧
    exec .roleC s = .next { s with role := some .C } ∧
    exec .roleCp s = .next { s with role := some .Cp } ∧
    exec .roleD s = .next { s with role := some .D }

/-- O19. 42_block_synchronizer.md R120 with the SYNDROME rows of 30_encoding.md R84 (the role wire is log 7). What each
arm does is said by the four statements on the states. -/
def Obligations.TickRunsTheSyndromeRow : Prop :=
  ∀ (s : State) (b : BitVec 1), ∃ u : State,
    exec (bitInstr b) s = .next (synchronize s.state u) ∧
    (∀ i, decode s.cfg ⟨.syndrome, (syn s.cfg (wNext s b)).toNat⟩ = .ok i →
      exec i { s with w := wNext s b, pos := posNext s } = .next u) ∧
    (decode s.cfg ⟨.syndrome, (syn s.cfg (wNext s b)).toNat⟩ = .error .roleNone →
      u = { s with w := wNext s b, pos := posNext s, role := none })

/-- O20. 10_state.md R20: the reported role is a combinational value that is not stored. The field `role` is the model's
own (log 7). -/
def Obligations.RoleOutputIsCombinational : Prop :=
  ∀ (s : State) (b : BitVec 1) (r : Option BlockRole),
    exec (bitInstr b) { s with role := r } = exec (bitInstr b) s ∧
    ∃ t, exec (bitInstr b) s = .next t ∧ t.role = roleOf t.cfg t.w

/-- O21. 42_block_synchronizer.md R121 and the rows of R128; the hold at 26 is the spec's decision D6 (log 12), a wrong
role a mismatch by D9 (log 14), `role` the model's wire (log 7). -/
def Obligations.TickInSeekingA : Prop :=
  ∀ (s : State) (b : BitVec 1), s.state = .seekingA →
    (posNext s < 26 →
      exec (bitInstr b) s = .next { s with w := wNext s b, pos := posNext s, role := roleNext s b }) ∧
    (26 ≤ posNext s → roleNext s b = some .A →
      exec (bitInstr b) s = .next { s with
        w := wNext s b, pos := 0, state := .expectingB, role := some .A
        slot := s.slot.set 0 ((wNext s b).extractLsb' 10 16) }) ∧
    (26 ≤ posNext s → roleNext s b ≠ some .A →
      exec (bitInstr b) s = .next { s with w := wNext s b, pos := 26, role := roleNext s b })

/-- O22. 42_block_synchronizer.md R122 and the rows of R128; the stall is the spec's decision D7 (log 11). -/
def Obligations.TickInExpectingB : Prop :=
  ∀ (s : State) (b : BitVec 1), s.state = .expectingB →
    (posNext s = 26 → roleNext s b = some .B →
      exec (bitInstr b) s = .next { s with
        w := wNext s b, pos := 0, state := .expectingC, role := some .B
        slot := s.slot.set 1 ((wNext s b).extractLsb' 10 16) }) ∧
    (posNext s ≠ 26 ∨ roleNext s b ≠ some .B →
      exec (bitInstr b) s = .next { s with w := wNext s b, pos := posNext s, role := roleNext s b })

/-- O23. 42_block_synchronizer.md R123 and the rows of R128; the fall-back on a mismatch alone is the spec's decision D8
(log 13). -/
def Obligations.TickInExpectingC : Prop :=
  ∀ (s : State) (b : BitVec 1), s.state = .expectingC →
    (posNext s = 26 → roleNext s b = some .C ∨ roleNext s b = some .Cp →
      exec (bitInstr b) s = .next { s with
        w := wNext s b, pos := 0, state := .expectingD, role := roleNext s b
        slot := s.slot.set 2 ((wNext s b).extractLsb' 10 16) }) ∧
    (posNext s = 26 → roleNext s b ≠ some .C → roleNext s b ≠ some .Cp →
      exec (bitInstr b) s = .next { s with w := wNext s b, pos := 0, state := .expectingB, role := roleNext s b }) ∧
    (posNext s ≠ 26 →
      exec (bitInstr b) s = .next { s with w := wNext s b, pos := posNext s, role := roleNext s b })

/-- O24. 42_block_synchronizer.md R124, 43_group_assembler.md R142 and the rows of R128; the stall is the spec's
decision D7 (log 11). -/
def Obligations.TickInExpectingD : Prop :=
  ∀ (s : State) (b : BitVec 1), s.state = .expectingD →
    (posNext s = 26 → roleNext s b = some .D →
      ∃ i, decode s.cfg ⟨.group,
          (s.slot[0] ++ s.slot[1] ++ s.slot[2] ++ (wNext s b).extractLsb' 10 16 : BitVec 64).toNat⟩ = .ok i ∧
        exec (bitInstr b) s = exec i { s with
          w := wNext s b, pos := 0, state := .seekingA, role := some .D
          slot := s.slot.set 3 ((wNext s b).extractLsb' 10 16) }) ∧
    (posNext s ≠ 26 ∨ roleNext s b ≠ some .D →
      exec (bitInstr b) s = .next { s with w := wNext s b, pos := posNext s, role := roleNext s b })

/-- O25. The transition table 42_block_synchronizer.md R128 and the inference 43_group_assembler.md R144: EXPECTING_D is
reached only through A, B and then C or Cp (decisions D7, D8, D9; log 11, 13, 14). -/
def Obligations.StateChangesOnlyAtAcceptedCheckPoints : Prop :=
  ∀ s t : State, step s = .next t → t.state ≠ s.state →
    (nextIsReset s ∧ t.state = .seekingA) ∨
    ∃ b, nextIsBit b s ∧ t.pos = 0 ∧
      ((s.state = .seekingA ∧ 26 ≤ posNext s ∧ roleNext s b = some .A ∧ t.state = .expectingB) ∨
       (s.state = .expectingB ∧ posNext s = 26 ∧ roleNext s b = some .B ∧ t.state = .expectingC) ∨
       (s.state = .expectingC ∧ posNext s = 26 ∧ (roleNext s b = some .C ∨ roleNext s b = some .Cp) ∧
          t.state = .expectingD) ∨
       (s.state = .expectingC ∧ posNext s = 26 ∧ roleNext s b ≠ some .C ∧ roleNext s b ≠ some .Cp ∧
          t.state = .expectingB) ∨
       (s.state = .expectingD ∧ posNext s = 26 ∧ roleNext s b = some .D ∧ t.state = .seekingA))

/-- O26. 43_group_assembler.md R140 and R141 with the check points of 42_block_synchronizer.md R127. That a wrong role
is a mismatch is the spec's decision D9 (log 14), that `reset` writes no slot its decision D13 (log 16). -/
def Obligations.OneSlotIsCapturedPerMatch : Prop :=
  (∀ (s : State) (b : BitVec 1), ∃ t, exec (bitInstr b) s = .next t ∧
    (∀ k, CapturesSlot s b k → t.slot = s.slot.set k ((wNext s b).extractLsb' 10 16)) ∧
    ((∀ k, ¬ CapturesSlot s b k) → t.slot = s.slot)) ∧
  (∀ (i : Instr) (s : State), i ≠ .submitBit0 → i ≠ .submitBit1 → ∃ t, exec i s = .next t ∧ t.slot = s.slot)

/-- O27. 42_block_synchronizer.md R129, an inference of the spec from its decisions D5 and D7 (log 2, 11). -/
def Obligations.StallLastsUntilTheCounterWraps : Prop :=
  ∀ (s : State) (bs : List (BitVec 1)), s.cfg.wellFormed = true →
    s.state = .expectingB ∨ s.state = .expectingD → s.pos = 26 → bs.length < 2 ^ s.cfg.posw →
    afterBits s bs = .next { s with
      w := windowAfter s.w bs
      pos := (26 + bs.length) % 2 ^ s.cfg.posw
      role := if bs = [] then s.role else roleOf s.cfg (windowAfter s.w bs)
      inputs := [] }

/-- O28. 42_block_synchronizer.md R129 and 43_group_assembler.md R144, inferences of the spec, for both stalling states
(decisions D5 and D7, log 2, 11). -/
def Obligations.StallEndsOnAMatchAfterTheWrap : Prop :=
  ∀ (s : State) (bs : List (BitVec 1)) (b : BitVec 1), s.cfg.wellFormed = true →
    s.pos = 26 → bs.length + 1 = 2 ^ s.cfg.posw →
    (s.state = .expectingB → roleOf s.cfg (windowAfter s.w (bs ++ [b])) = some .B →
      afterBits s (bs ++ [b]) = .next { s with
        w := windowAfter s.w (bs ++ [b])
        pos := 0
        state := .expectingC
        slot := s.slot.set 1 ((windowAfter s.w (bs ++ [b])).extractLsb' 10 16)
        role := some .B
        inputs := [] }) ∧
    (s.state = .expectingD → roleOf s.cfg (windowAfter s.w (bs ++ [b])) = some .D →
      ∃ i, decode s.cfg ⟨.group,
          (s.slot[0] ++ s.slot[1] ++ s.slot[2] ++ (windowAfter s.w (bs ++ [b])).extractLsb' 10 16 : BitVec 64).toNat⟩
            = .ok i ∧
        afterBits s (bs ++ [b]) = exec i { s with
          w := windowAfter s.w (bs ++ [b])
          pos := 0
          state := .seekingA
          slot := s.slot.set 3 ((windowAfter s.w (bs ++ [b])).extractLsb' 10 16)
          role := some .D
          inputs := [] })

/-- O29. 42_block_synchronizer.md R130, whose exact form is an inference of the spec (decision D6, log 12). A tick is a
check point where POS was brought to 26 or stands there (R127), so a role A met before that does not matter. -/
def Obligations.StreamWithoutRoleANeverLocks : Prop :=
  ∀ (s : State) (bs : List (BitVec 1)), s.cfg.wellFormed = true → s.state = .seekingA → s.pos ≤ 26 →
    (∀ n, n ≤ bs.length → 0 < n → 26 ≤ s.pos + n →
      roleOf s.cfg (windowAfter s.w (bs.take n)) ≠ some .A) →
    afterBits s bs = .next { s with
      w := windowAfter s.w bs
      pos := min 26 (s.pos + bs.length)
      role := if bs = [] then s.role else roleOf s.cfg (windowAfter s.w bs)
      inputs := [] }

/-- O30. The source's properties S2 and S3 of 95_test_vectors.md for every parity table and every group;
43_group_assembler.md R144, last sentence. It rests on the spec's decision D8 (log 13). -/
def Obligations.ErrorFreeGroupIsDecoded : Prop :=
  ∀ (s : State) (wa wb wc wd : Window), s.cfg.wellFormed = true → s.state = .seekingA → s.pos = 0 →
    roleOf s.cfg wa = some .A → roleOf s.cfg wb = some .B →
    roleOf s.cfg wc = some .C ∨ roleOf s.cfg wc = some .Cp → roleOf s.cfg wd = some .D →
    ∃ i, decode s.cfg ⟨.group,
        (wa.extractLsb' 10 16 ++ wb.extractLsb' 10 16 ++ wc.extractLsb' 10 16 ++ wd.extractLsb' 10 16 : BitVec 64).toNat⟩
          = .ok i ∧
      afterBits s (bitsOf wa ++ bitsOf wb ++ bitsOf wc ++ bitsOf wd) = exec i { s with
        w := wd, pos := 0, state := .seekingA, role := some .D, inputs := []
        slot := #v[wa.extractLsb' 10 16, wb.extractLsb' 10 16, wc.extractLsb' 10 16, wd.extractLsb' 10 16] }

/-- O31. 30_encoding.md R77 and 44_group_decoder.md R150, for every value of the 64 bits. What the extractors write is
said by the statements on the rows. -/
def Obligations.GroupTypeSelectsTheExtractor : Prop :=
  ∀ (cfg : Config) (a b c d : DataWord) (s : State), ∃ i,
    decode cfg ⟨.group, (a ++ b ++ c ++ d : BitVec 64).toNat⟩ = .ok i ∧
    (b.extractLsb' 12 4 = 0#4 ∨ b.extractLsb' 12 4 = 15#4 →
      exec i s = .next (extractPs a (b.extractLsb' 0 2) d s)) ∧
    (b.extractLsb' 12 4 = 2#4 →
      exec i s = .next (extractRt a (b.extractLsb' 4 1) (b.extractLsb' 0 4) c d s)) ∧
    (b.extractLsb' 12 4 ≠ 0#4 → b.extractLsb' 12 4 ≠ 15#4 → b.extractLsb' 12 4 ≠ 2#4 → exec i s = .next s)

/-- O32. 44_group_decoder.md R151, for both rows, every index and every value of the ignored bits and of word C. The
last clause is its corner case (d), for a PS in canonical form (log 19). -/
def Obligations.ProgramNameGroupWritesOneSegment : Prop :=
  ∀ (s : State) (a : DataWord) (x : BitVec 10) (i : BitVec 2) (c d : DataWord) (row : Instr),
    row = .groupT0ProgramName a x i c d ∨ row = .groupT15ProgramName a x i c d →
    ∃ t, exec row s = .next t ∧
      t = { s with pi := a, ps := t.ps } ∧
      2 * i.toNat + 1 < 8 ∧
      readByte t .ps (2 * i.toNat) = d.extractLsb' 8 8 ∧
      readByte t .ps (2 * i.toNat + 1) = d.extractLsb' 0 8 ∧
      (∀ k, k ≠ 2 * i.toNat → k ≠ 2 * i.toNat + 1 → readByte t .ps k = readByte s .ps k) ∧
      (s.ps.wf 8 → readByte s .ps (2 * i.toNat) = d.extractLsb' 8 8 →
        readByte s .ps (2 * i.toNat + 1) = d.extractLsb' 0 8 → t.ps = s.ps)

/-- O33. 44_group_decoder.md R152; that SEL is written here is the spec's inference from the accessor contract
(10_state.md R28). -/
def Obligations.MessageTextGroupWritesOneSegment : Prop :=
  ∀ (s : State) (a : DataWord) (x : BitVec 7) (v : BitVec 1) (i : BitVec 4) (c d : DataWord),
    ∃ t, exec (.groupT2MessageText a x v i c d) s = .next t ∧
      (v = 0#1 → t = { s with pi := a, sel := 0#1, rt0 := t.rt0 }) ∧
      (v = 1#1 → t = { s with pi := a, sel := 1#1, rt1 := t.rt1 }) ∧
      4 * i.toNat + 3 < 64 ∧
      ∀ sp, sp = (if v = 0#1 then Space.rt0 else Space.rt1) →
        readByte t sp (4 * i.toNat) = c.extractLsb' 8 8 ∧
        readByte t sp (4 * i.toNat + 1) = c.extractLsb' 0 8 ∧
        readByte t sp (4 * i.toNat + 2) = d.extractLsb' 8 8 ∧
        readByte t sp (4 * i.toNat + 3) = d.extractLsb' 0 8 ∧
        ∀ k, k < 4 * i.toNat ∨ 4 * i.toNat + 3 < k → readByte t sp k = readByte s sp k

/-- O34. 44_group_decoder.md R153: the rows themselves, and the tick that completes such a group. -/
def Obligations.IgnoredGroupsChangeNothing : Prop :=
  (∀ (s : State) (a : DataWord) (x : BitVec 12) (c d : DataWord) (row : Instr),
    (row = .groupT1Ignored a x c d ∨
      row = .groupT3Ignored a x c d ∨
      row = .groupT4Ignored a x c d ∨
      row = .groupT5Ignored a x c d ∨
      row = .groupT6Ignored a x c d ∨
      row = .groupT7Ignored a x c d ∨
      row = .groupT8Ignored a x c d ∨
      row = .groupT9Ignored a x c d ∨
      row = .groupT10Ignored a x c d ∨
      row = .groupT11Ignored a x c d ∨
      row = .groupT12Ignored a x c d ∨
      row = .groupT13Ignored a x c d ∨
      row = .groupT14Ignored a x c d) →
    exec row s = .next s) ∧
  (∀ (s : State) (b : BitVec 1), s.state = .expectingD → posNext s = 26 → roleNext s b = some .D →
    s.slot[1].extractLsb' 12 4 ≠ 0#4 → s.slot[1].extractLsb' 12 4 ≠ 2#4 → s.slot[1].extractLsb' 12 4 ≠ 15#4 →
    exec (bitInstr b) s = .next { s with
      w := wNext s b, pos := 0, state := .seekingA, role := some .D
      slot := s.slot.set 3 ((wNext s b).extractLsb' 10 16) })

/-- O35. 44_group_decoder.md R154: the 2-character variant is omitted, whichever ignored bit marks it, and every type 2
group is decoded by R152. What `extractRt` writes is said by MessageTextGroupWritesOneSegment. -/
def Obligations.TwoCharacterVariantNeverActivates : Prop :=
  ∀ (cfg : Config) (a b b' c d : DataWord) (i i' : Instr) (s : State),
    b.extractLsb' 12 4 = 2#4 → b'.extractLsb' 12 4 = 2#4 → b.extractLsb' 0 5 = b'.extractLsb' 0 5 →
    decode cfg ⟨.group, (a ++ b ++ c ++ d : BitVec 64).toNat⟩ = .ok i →
    decode cfg ⟨.group, (a ++ b' ++ c ++ d : BitVec 64).toNat⟩ = .ok i' →
    exec i s = .next (extractRt a (b.extractLsb' 4 1) (b.extractLsb' 0 4) c d s) ∧
    exec i' s = .next (extractRt a (b.extractLsb' 4 1) (b.extractLsb' 0 4) c d s)

/-- O36. 20_memory.md R56, 44_group_decoder.md R156 and 43_group_assembler.md R142 read together: whole-machine, over
every operation. -/
def Obligations.OutputsChangeOnlyByResetOrACompletedGroup : Prop :=
  ∀ s t : State, step s = .next t →
    (t.pi ≠ s.pi ∨ t.sel ≠ s.sel ∨ t.ps ≠ s.ps ∨ t.rt0 ≠ s.rt0 ∨ t.rt1 ≠ s.rt1) →
    nextIsReset s ∨
    ∃ b, nextIsBit b s ∧ s.state = .expectingD ∧ posNext s = 26 ∧ roleNext s b = some .D ∧
      (s.slot[1].extractLsb' 12 4 = 0#4 ∨ s.slot[1].extractLsb' 12 4 = 2#4 ∨ s.slot[1].extractLsb' 12 4 = 15#4)

/-- O37. 45_output_store_ops.md R172 and 60_exceptions.md R193 (c). READY and what stays are the spec's decisions D12
and D13 (log 17, 16), the dropped bit is D2 (log 15). -/
def Obligations.ResetClearsTheBuffersAndSeeks : Prop :=
  ∀ (s : State) (v b : BitVec 1), ∃ t, exec (.reset v b) s = .next t ∧
    t = { s with ps := t.ps, rt0 := t.rt0, rt1 := t.rt1, state := .seekingA, pos := 0, ready := 1#1 } ∧
    ∀ sp k, readByte t sp k = 0#8

/-- O38. 45_output_store_ops.md R172, corner case (b) (decision D13, log 16). -/
def Obligations.ResetIsIdempotent : Prop :=
  ∀ (s t : State) (v b v' b' : BitVec 1), exec (.reset v b) s = .next t → exec (.reset v' b') t = .next t

/-- O39. 60_exceptions.md R193 (c), the spec's decision D2 (log 15). -/
def Obligations.ResetRequestDropsTheBit : Prop :=
  ∀ (s : State) (c : BitVec 3) (rest : List Presented), s.cfg.wellFormed = true →
    s.inputs = .cmd c :: rest → c.getLsbD 2 = true →
    step s = exec (.reset 0#1 0#1) (s.present rest) ∧ ∃ t, step s = .next t ∧ t.w = s.w ∧ t.pos = 0

/-- O40. 30_encoding.md R80, the spec's decision D1 (log 24). -/
def Obligations.IdleChangesNothing : Prop :=
  ∀ (s : State) (b : BitVec 1), exec (.idle b) s = .next s

/-- O41. 45_output_store_ops.md R170, R171 and R173, 20_memory.md R54. That a value returned is held in `reply` is the
model's rendering (log 6). -/
def Obligations.ReadsReturnAndWriteNothing : Prop :=
  ∀ s : State,
    exec .programName s =
      .next { s with reply := some (.programName ((List.range 8).map (fun k => readByte s .ps k))) } ∧
    (s.sel = 0#1 → exec .messageText s =
      .next { s with reply := some (.messageText ((List.range 64).map (fun k => readByte s .rt0 k))) }) ∧
    (s.sel = 1#1 → exec .messageText s =
      .next { s with reply := some (.messageText ((List.range 64).map (fun k => readByte s .rt1 k))) }) ∧
    exec .isReady s = .next { s with reply := some (.isReady s.ready) }

/-- O42. 30_encoding.md R80, the spec's decision D1 (log 24). -/
def Obligations.PortsCarryTheBytesInOrder : Prop :=
  ∀ s : State,
    (∀ k, k < 8 → (psOut s).extractLsb' (8 * (7 - k)) 8 = readByte s .ps k) ∧
    (∀ k, k < 64 → (rtOut s).extractLsb' (8 * (63 - k)) 8 = readByte s (if s.sel = 0#1 then .rt0 else .rt1) k) ∧
    readyOut s = s.ready

/-- O43. 45_output_store_ops.md R171, corner case (b), an inference of the spec, and R170, corner case (a). -/
def Obligations.MessageIsBlankAfterReset : Prop :=
  ∀ (s t : State) (v b : BitVec 1), exec (.reset v b) s = .next t →
    exec .messageText t = .next { t with reply := some (.messageText (List.replicate 64 0#8)) } ∧
    exec .programName t = .next { t with reply := some (.programName (List.replicate 8 0#8)) }

/-- O44. 45_output_store_ops.md R173, the spec's decision D12 (log 17). -/
def Obligations.ReadyIsZeroBeforeResetAndOneAfter : Prop :=
  (∀ (cfg : Config) (w : Window) (pos : Nat) (slot : Vector DataWord 4) (pi : DataWord) (ps rt0 rt1 : Memory)
      (sel : BitVec 1), ∃ t, exec .isReady (State.powerOn cfg w pos slot pi ps rt0 rt1 sel) = .next t ∧
    t.reply = some (.isReady 0#1)) ∧
  (∀ (s t : State) (v b : BitVec 1), exec (.reset v b) s = .next t →
    ∃ u, exec .isReady t = .next u ∧ u.reply = some (.isReady 1#1))

/-- O45. 10_state.md R29, the spec's decision D12 (log 17): whole-machine, over every operation. -/
def Obligations.ReadyChangesOnlyByReset : Prop :=
  ∀ s t : State, step s = .next t →
    (nextIsReset s → t.ready = 1#1) ∧ (¬ nextIsReset s → t.ready = s.ready)

/-- O46. 70_reset_and_hazards.md R218, an inference of the spec: a run that begins with `reset` behaves the same for
every value these four registers held. It is why the model's own choice of them (log 3) cannot be seen. -/
def Obligations.RegistersLeftByResetCannotBeSeen : Prop :=
  ∀ (n : Nat) (s t s' t' : State), s.cfg.wellFormed = true → AgreeAfterReset s t →
    Host.Core.run Sys2Proof.core n s = .next s' → Host.Core.run Sys2Proof.core n t = .next t' →
    t'.reply = s'.reply ∧ t'.state = s'.state ∧ t'.pos = s'.pos ∧ t'.ready = s'.ready ∧
    t'.ps = s'.ps ∧ t'.rt0 = s'.rt0 ∧ t'.rt1 = s'.rt1 ∧
    psOut t' = psOut s' ∧ rtOut t' = rtOut s' ∧ readyOut t' = readyOut s'

/-- O47. 30_encoding.md R82, an inference of the spec, for the reference tables (PRESUMED, log 1). -/
def Obligations.BlockWordHasItsRoleAndData : Prop :=
  ∀ (r : BlockRole) (d : DataWord),
    roleOf referenceConfig (blockWord referenceConfig r d) = some r ∧
    (blockWord referenceConfig r d).extractLsb' 10 16 = d

/-- O48. How one row is laid before the machine is the model's rendering (log 9), and so is the format by the number of
bits and the numbering of the ports (log 8): a command word or a read is presented, a syndrome is laid in the window and
a group view in the slots and the window, so that the next tick completes it. The role wire is log 7. -/
def Obligations.FetchWordRunsTheRow : Prop :=
  ∀ s : State, s.cfg.wellFormed = true →
    (∀ (c : BitVec 3) (i : Instr), decode s.cfg ⟨.cmd, c.toNat⟩ = .ok i →
      step (s.withFetchWord 8 c.toNat) = exec i s) ∧
    (∀ (n : Nat) (i : Instr), decode s.cfg ⟨.port, n⟩ = .ok i →
      step (s.withFetchWord 0 n) = exec i s) ∧
    (∀ (y : Syndrome) (i : Instr), decode s.cfg ⟨.syndrome, y.toNat⟩ = .ok i →
      syn s.cfg (windowWith s.cfg y 0#16) = y →
      ∃ u, exec i { s with w := windowWith s.cfg y 0#16, pos := posNext s } = .next u ∧
        step (s.withFetchWord 16 y.toNat) = .next (synchronize s.state u)) ∧
    (∀ (g : BitVec 64) (i : Instr), decode s.cfg ⟨.group, g.toNat⟩ = .ok i →
      roleOf s.cfg (blockWord s.cfg .D (g.extractLsb' 0 16)) = some .D →
      step (s.withFetchWord 64 g.toNat) = exec i { s with
        w := blockWord s.cfg .D (g.extractLsb' 0 16), pos := 0, state := .seekingA, role := some .D
        slot := #v[g.extractLsb' 48 16, g.extractLsb' 32 16, g.extractLsb' 16 16, g.extractLsb' 0 16] })
end

