-- ==== Sys2Proof/Laws/GroupView.lean ====
section
/-! SUPPORT. The fields of a group view put together from its four words (30_encoding.md R72): each field is the field of the
word it lies in. -/

namespace Sys2Proof.Machine

theorem view_word_a (a b c d : DataWord) : field (a ++ b ++ c ++ d) 48 16 = a := by
  have h : (a ++ b ++ c ++ d).extractLsb' 48 16 = a := by
    ext i hi
    have h1 : ¬ 48 + i < 16 := by omega
    have h2 : ¬ 48 + i - 16 < 16 := by omega
    have h3 : ¬ 48 + i - 16 - 16 < 16 := by omega
    have h4 : 48 + i - 16 - 16 - 16 = i := by omega
    rw [BitVec.getElem_extractLsb']
    simp only [BitVec.getLsbD_append, h1, h2, h3, h4, if_false]
    simp [hi]
  exact h

/-- A field of `n` bits of word B from its bit `o` up. -/
theorem view_field_b (a b c d : DataWord) (o n : Nat) (h : o + n ≤ 16) :
    field (a ++ b ++ c ++ d) (32 + o) n = b.extractLsb' o n := by
  have h : (a ++ b ++ c ++ d).extractLsb' (32 + o) n = b.extractLsb' o n := by
    ext i hi
    have h1 : ¬ 32 + o + i < 16 := by omega
    have h2 : ¬ 32 + o + i - 16 < 16 := by omega
    have h3 : o + i < 16 := by omega
    have h4 : 32 + o + i - 16 - 16 = o + i := by omega
    rw [BitVec.getElem_extractLsb']
    simp only [BitVec.getLsbD_append, h1, h2, h3, h4, if_true, if_false]
    simp
  exact h

theorem view_word_c (a b c d : DataWord) : field (a ++ b ++ c ++ d) 16 16 = c := by
  have h : (a ++ b ++ c ++ d).extractLsb' 16 16 = c := by
    ext i hi
    have h1 : ¬ 16 + i < 16 := by omega
    have h2 : 16 + i - 16 = i := by omega
    rw [BitVec.getElem_extractLsb']
    simp only [BitVec.getLsbD_append, h1, h2, hi, if_true, if_false]
    simp [hi]
  exact h

theorem view_word_d (a b c d : DataWord) : field (a ++ b ++ c ++ d) 0 16 = d := by
  have h : (a ++ b ++ c ++ d).extractLsb' 0 16 = d := by
    ext i hi
    rw [BitVec.getElem_extractLsb']
    simp only [BitVec.getLsbD_append, Nat.zero_add, hi, if_true]
    simp [hi]
  exact h

end Sys2Proof.Machine
end

