-- ==== Sys2Proof/Laws/Memory.lean ====
section
/-! SUPPORT. The laws of one byte space: a byte written is read back, every other byte is left alone, every operation keeps
the canonical form, and equal contents are equal data. -/

namespace Sys2Proof.Machine

/-! ### Reading after a write -/

@[simp] theorem Memory.read_nil (k : Nat) : Memory.read [] k = 0#8 := rfl

theorem Memory.read_cons (a : Nat) (b : Byte) (m : Memory) (k : Nat) :
    Memory.read ((a, b) :: m) k = if a = k then b else Memory.read m k := rfl

@[simp] theorem Memory.read_erase_same (m : Memory) (k : Nat) : (m.erase k).read k = 0#8 := by
  induction m with
  | nil => rfl
  | cons c m ih =>
    by_cases h : c.1 = k
    · simpa [Memory.erase, h] using ih
    · simpa [Memory.erase, h, Memory.read] using ih

theorem Memory.read_erase_other (m : Memory) {k j : Nat} (h : j ≠ k) : (m.erase k).read j = m.read j := by
  induction m with
  | nil => rfl
  | cons c m ih =>
    obtain ⟨a, b⟩ := c
    by_cases ha : a = k
    · have : a ≠ j := by omega
      simpa [Memory.erase, ha, Memory.read, Ne.symm h] using ih
    · simpa [Memory.erase, ha, Memory.read] using
        congrArg (fun x => if a = j then b else x) ih

theorem Memory.read_insert_other (m : Memory) {k j : Nat} (v : Byte) (h : j ≠ k) :
    (m.insert k v).read j = m.read j := by
  induction m with
  | nil => simp [Memory.insert, Memory.read, Ne.symm h]
  | cons c m ih =>
    obtain ⟨a, b⟩ := c
    by_cases ha : k < a
    · simp [Memory.insert, ha, Memory.read, Ne.symm h]
    · simp [Memory.insert, ha, Memory.read, ih]

theorem Memory.read_insert_same (m : Memory) (k : Nat) (v : Byte) (h : ∀ c ∈ m, c.1 ≠ k) :
    (m.insert k v).read k = v := by
  induction m with
  | nil => simp [Memory.insert, Memory.read]
  | cons c m ih =>
    obtain ⟨a, b⟩ := c
    have ha : a ≠ k := h (a, b) (by simp)
    by_cases hk : k < a
    · simp [Memory.insert, hk, Memory.read]
    · simp [Memory.insert, hk, Memory.read, ha, ih (fun c hc => h c (by simp [hc]))]

theorem Memory.erase_ne (m : Memory) (k : Nat) : ∀ c ∈ m.erase k, c.1 ≠ k := by
  simp [Memory.erase]

@[simp] theorem Memory.read_write_same (m : Memory) (k : Nat) (v : Byte) : (m.write k v).read k = v := by
  by_cases h : v = 0#8
  · simp [Memory.write, h]
  · simp [Memory.write, h, Memory.read_insert_same _ _ _ (m.erase_ne k)]

theorem Memory.read_write_other (m : Memory) {k j : Nat} (v : Byte) (h : j ≠ k) :
    (m.write k v).read j = m.read j := by
  by_cases hv : v = 0#8
  · simp [Memory.write, hv, Memory.read_erase_other m h]
  · simp [Memory.write, hv, Memory.read_insert_other _ v h, Memory.read_erase_other m h]

/-- What a word write leaves at every offset (20_memory.md R51). -/
theorem Memory.read_writeWord (m : Memory) (k j : Nat) (x : DataWord) :
    (m.writeWord k x).read j = if j = k then hi x else if j = k + 1 then lo x else m.read j := by
  by_cases h1 : j = k + 1
  · subst h1
    simp [Memory.writeWord]
  · by_cases h0 : j = k
    · subst h0
      simp [Memory.writeWord, Memory.read_write_other _ (lo x) h1]
    · simp [Memory.writeWord, Memory.read_write_other _ (lo x) h1, Memory.read_write_other _ (hi x) h0, h0, h1]

/-! ### The canonical form -/

theorem Memory.nil_wf (n : Nat) : Memory.wf n [] := by
  simp [Memory.wf]

theorem Memory.erase_wf {n : Nat} {m : Memory} (k : Nat) (h : m.wf n) : (m.erase k).wf n :=
  ⟨h.1.filter _, fun c hc => h.2 c (List.mem_filter.1 hc).1⟩

theorem Memory.mem_insert {m : Memory} {k : Nat} {v : Byte} {c : Host.Cell} :
    c ∈ m.insert k v ↔ c = (k, v) ∨ c ∈ m := by
  induction m with
  | nil => simp [Memory.insert]
  | cons d m ih =>
    obtain ⟨a, b⟩ := d
    by_cases hk : k < a
    · simp [Memory.insert, hk]
    · simp only [Memory.insert, hk, if_false, List.mem_cons, ih]
      tauto

theorem Memory.insert_wf {n : Nat} {m : Memory} {k : Nat} {v : Byte} (h : m.wf n) (hk : k < n) (hv : v ≠ 0#8)
    (hne : ∀ c ∈ m, c.1 ≠ k) : (m.insert k v).wf n := by
  refine ⟨?_, fun c hc => ?_⟩
  · obtain ⟨hs, -⟩ := h
    induction m with
    | nil => simp [Memory.insert]
    | cons d m ih =>
      obtain ⟨a, b⟩ := d
      have hak : a ≠ k := hne (a, b) (by simp)
      rw [List.pairwise_cons] at hs
      by_cases hlt : k < a
      · simp only [Memory.insert, hlt, if_true, List.pairwise_cons]
        refine ⟨fun c hc => ?_, hs⟩
        rcases List.mem_cons.1 hc with rfl | hc
        · exact hlt
        · exact lt_trans hlt (hs.1 c hc)
      · simp only [Memory.insert, hlt, if_false, List.pairwise_cons]
        refine ⟨fun c hc => ?_, ih (fun c hc => hne c (by simp [hc])) hs.2⟩
        rcases Memory.mem_insert.1 hc with rfl | hc
        · show a < k
          omega
        · exact hs.1 c hc
  · rcases Memory.mem_insert.1 hc with rfl | hc
    · exact ⟨hk, hv⟩
    · exact h.2 c hc

/-- A byte write inside the space keeps the canonical form. -/
theorem Memory.write_wf {n : Nat} {m : Memory} {k : Nat} (v : Byte) (h : m.wf n) (hk : k < n) : (m.write k v).wf n := by
  by_cases hv : v = 0#8
  · simpa only [Memory.write, hv, if_true] using Memory.erase_wf k h
  · simpa only [Memory.write, hv, if_false] using
      Memory.insert_wf (Memory.erase_wf k h) hk hv (m.erase_ne k)

/-- A word write inside the space keeps the canonical form. -/
theorem Memory.writeWord_wf {n : Nat} {m : Memory} {k : Nat} (x : DataWord) (h : m.wf n) (hk : k + 1 < n) :
    (m.writeWord k x).wf n :=
  Memory.write_wf _ (Memory.write_wf _ h (by omega)) hk

/-- In the canonical form an offset below every entry reads 0x00. -/
theorem Memory.read_of_lt {m : Memory} {k : Nat} (h : ∀ c ∈ m, k < c.1) : m.read k = 0#8 := by
  induction m with
  | nil => rfl
  | cons c m ih =>
    obtain ⟨a, b⟩ := c
    have ha : k < a := h (a, b) (by simp)
    rw [Memory.read_cons, if_neg (by omega)]
    exact ih (fun c hc => h c (by simp [hc]))

/-- Canonical spaces with the same bytes are the same data. -/
theorem Memory.wf_ext {n : Nat} {m m' : Memory} (h : m.wf n) (h' : m'.wf n) (hr : ∀ k, m.read k = m'.read k) :
    m = m' := by
  induction m generalizing m' with
  | nil =>
    match m' with
    | [] => rfl
    | (a, b) :: m' =>
      have := hr a
      simp [Memory.read] at this
      exact absurd this.symm (h'.2 (a, b) (by simp)).2
  | cons c m ih =>
    obtain ⟨a, b⟩ := c
    match m' with
    | [] =>
      have := hr a
      simp [Memory.read] at this
      exact absurd this (h.2 (a, b) (by simp)).2
    | (a', b') :: m' =>
      have hs := List.pairwise_cons.1 h.1
      have hs' := List.pairwise_cons.1 h'.1
      have hb : b ≠ 0#8 := (h.2 (a, b) (by simp)).2
      have hb' : b' ≠ 0#8 := (h'.2 (a', b') (by simp)).2
      have haa : a = a' := by
        rcases lt_trichotomy a a' with hlt | heq | hgt
        · have h1 := hr a
          rw [Memory.read_cons, if_pos rfl, Memory.read_cons, if_neg (by omega),
            Memory.read_of_lt (fun c hc => lt_trans hlt (hs'.1 c hc))] at h1
          exact absurd h1 hb
        · exact heq
        · have h1 := hr a'
          rw [Memory.read_cons, if_neg (by omega), Memory.read_cons, if_pos rfl,
            Memory.read_of_lt (fun c hc => lt_trans hgt (hs.1 c hc))] at h1
          exact absurd h1.symm hb'
      subst haa
      have hbb : b = b' := by
        have h1 := hr a
        simpa [Memory.read] using h1
      subst hbb
      congr 1
      refine ih ⟨hs.2, fun c hc => h.2 c (by simp [hc])⟩ ⟨hs'.2, fun c hc => h'.2 c (by simp [hc])⟩ (fun k => ?_)
      by_cases hk : a = k
      · subst hk
        rw [Memory.read_of_lt hs.1, Memory.read_of_lt hs'.1]
      · have h1 := hr k
        rwa [Memory.read_cons, if_neg hk, Memory.read_cons, if_neg hk] at h1

/-- Writing a byte that is already there changes nothing (44_group_decoder.md R151, corner case d). -/
theorem Memory.write_same {n : Nat} {m : Memory} {k : Nat} (h : m.wf n) (hk : k < n) : m.write k (m.read k) = m := by
  refine Memory.wf_ext (Memory.write_wf _ h hk) h (fun j => ?_)
  by_cases hj : j = k
  · subst hj
    simp
  · exact Memory.read_write_other _ _ hj

end Sys2Proof.Machine
end

