-- ==== Sys2Proof/Laws/State.lean ====
section
/-! SUPPORT. The small lemmas of the register operations: what each one leaves in each field of State. -/

namespace Sys2Proof.Machine

variable (s : State)

/-! `selectVariant` -/

@[simp] theorem selectVariant_cfg (v : BitVec 1) : (selectVariant v s).cfg = s.cfg := rfl
@[simp] theorem selectVariant_w (v : BitVec 1) : (selectVariant v s).w = s.w := rfl
@[simp] theorem selectVariant_pos (v : BitVec 1) : (selectVariant v s).pos = s.pos := rfl
@[simp] theorem selectVariant_state (v : BitVec 1) : (selectVariant v s).state = s.state := rfl
@[simp] theorem selectVariant_slot (v : BitVec 1) : (selectVariant v s).slot = s.slot := rfl
@[simp] theorem selectVariant_pi (v : BitVec 1) : (selectVariant v s).pi = s.pi := rfl
@[simp] theorem selectVariant_ps (v : BitVec 1) : (selectVariant v s).ps = s.ps := rfl
@[simp] theorem selectVariant_rt0 (v : BitVec 1) : (selectVariant v s).rt0 = s.rt0 := rfl
@[simp] theorem selectVariant_rt1 (v : BitVec 1) : (selectVariant v s).rt1 = s.rt1 := rfl
@[simp] theorem selectVariant_sel (v : BitVec 1) : (selectVariant v s).sel = v := rfl
@[simp] theorem selectVariant_ready (v : BitVec 1) : (selectVariant v s).ready = s.ready := rfl
@[simp] theorem selectVariant_role (v : BitVec 1) : (selectVariant v s).role = s.role := rfl
@[simp] theorem selectVariant_reply (v : BitVec 1) : (selectVariant v s).reply = s.reply := rfl
@[simp] theorem selectVariant_inputs (v : BitVec 1) : (selectVariant v s).inputs = s.inputs := rfl

/-! `arm` -/

@[simp] theorem arm_cfg : (arm s).cfg = s.cfg := rfl
@[simp] theorem arm_w : (arm s).w = s.w := rfl
@[simp] theorem arm_pos : (arm s).pos = s.pos := rfl
@[simp] theorem arm_state : (arm s).state = s.state := rfl
@[simp] theorem arm_slot : (arm s).slot = s.slot := rfl
@[simp] theorem arm_pi : (arm s).pi = s.pi := rfl
@[simp] theorem arm_ps : (arm s).ps = s.ps := rfl
@[simp] theorem arm_rt0 : (arm s).rt0 = s.rt0 := rfl
@[simp] theorem arm_rt1 : (arm s).rt1 = s.rt1 := rfl
@[simp] theorem arm_sel : (arm s).sel = s.sel := rfl
@[simp] theorem arm_ready : (arm s).ready = 1#1 := rfl
@[simp] theorem arm_role : (arm s).role = s.role := rfl
@[simp] theorem arm_reply : (arm s).reply = s.reply := rfl
@[simp] theorem arm_inputs : (arm s).inputs = s.inputs := rfl

/-! `clearBuffers` -/

@[simp] theorem clearBuffers_cfg : (clearBuffers s).cfg = s.cfg := rfl
@[simp] theorem clearBuffers_w : (clearBuffers s).w = s.w := rfl
@[simp] theorem clearBuffers_pos : (clearBuffers s).pos = s.pos := rfl
@[simp] theorem clearBuffers_state : (clearBuffers s).state = s.state := rfl
@[simp] theorem clearBuffers_slot : (clearBuffers s).slot = s.slot := rfl
@[simp] theorem clearBuffers_pi : (clearBuffers s).pi = s.pi := rfl
@[simp] theorem clearBuffers_ps : (clearBuffers s).ps = [] := rfl
@[simp] theorem clearBuffers_rt0 : (clearBuffers s).rt0 = [] := rfl
@[simp] theorem clearBuffers_rt1 : (clearBuffers s).rt1 = [] := rfl
@[simp] theorem clearBuffers_sel : (clearBuffers s).sel = s.sel := rfl
@[simp] theorem clearBuffers_ready : (clearBuffers s).ready = s.ready := rfl
@[simp] theorem clearBuffers_role : (clearBuffers s).role = s.role := rfl
@[simp] theorem clearBuffers_reply : (clearBuffers s).reply = s.reply := rfl
@[simp] theorem clearBuffers_inputs : (clearBuffers s).inputs = s.inputs := rfl

/-! `shift` -/

@[simp] theorem shift_cfg (b : BitVec 1) : (shift b s).cfg = s.cfg := rfl
@[simp] theorem shift_w (b : BitVec 1) : (shift b s).w = shifted s.w b := rfl
@[simp] theorem shift_pos (b : BitVec 1) : (shift b s).pos = s.pos := rfl
@[simp] theorem shift_state (b : BitVec 1) : (shift b s).state = s.state := rfl
@[simp] theorem shift_slot (b : BitVec 1) : (shift b s).slot = s.slot := rfl
@[simp] theorem shift_pi (b : BitVec 1) : (shift b s).pi = s.pi := rfl
@[simp] theorem shift_ps (b : BitVec 1) : (shift b s).ps = s.ps := rfl
@[simp] theorem shift_rt0 (b : BitVec 1) : (shift b s).rt0 = s.rt0 := rfl
@[simp] theorem shift_rt1 (b : BitVec 1) : (shift b s).rt1 = s.rt1 := rfl
@[simp] theorem shift_sel (b : BitVec 1) : (shift b s).sel = s.sel := rfl
@[simp] theorem shift_ready (b : BitVec 1) : (shift b s).ready = s.ready := rfl
@[simp] theorem shift_role (b : BitVec 1) : (shift b s).role = s.role := rfl
@[simp] theorem shift_reply (b : BitVec 1) : (shift b s).reply = s.reply := rfl
@[simp] theorem shift_inputs (b : BitVec 1) : (shift b s).inputs = s.inputs := rfl

/-! `count` -/

@[simp] theorem count_cfg : (count s).cfg = s.cfg := rfl
@[simp] theorem count_w : (count s).w = s.w := rfl
@[simp] theorem count_pos : (count s).pos = (s.pos + 1) % 2 ^ s.cfg.posw := rfl
@[simp] theorem count_state : (count s).state = s.state := rfl
@[simp] theorem count_slot : (count s).slot = s.slot := rfl
@[simp] theorem count_pi : (count s).pi = s.pi := rfl
@[simp] theorem count_ps : (count s).ps = s.ps := rfl
@[simp] theorem count_rt0 : (count s).rt0 = s.rt0 := rfl
@[simp] theorem count_rt1 : (count s).rt1 = s.rt1 := rfl
@[simp] theorem count_sel : (count s).sel = s.sel := rfl
@[simp] theorem count_ready : (count s).ready = s.ready := rfl
@[simp] theorem count_role : (count s).role = s.role := rfl
@[simp] theorem count_reply : (count s).reply = s.reply := rfl
@[simp] theorem count_inputs : (count s).inputs = s.inputs := rfl

/-! `holdPos` -/

@[simp] theorem holdPos_cfg : (holdPos s).cfg = s.cfg := rfl
@[simp] theorem holdPos_w : (holdPos s).w = s.w := rfl
@[simp] theorem holdPos_pos : (holdPos s).pos = if 26 < s.pos then 26 else s.pos := rfl
@[simp] theorem holdPos_state : (holdPos s).state = s.state := rfl
@[simp] theorem holdPos_slot : (holdPos s).slot = s.slot := rfl
@[simp] theorem holdPos_pi : (holdPos s).pi = s.pi := rfl
@[simp] theorem holdPos_ps : (holdPos s).ps = s.ps := rfl
@[simp] theorem holdPos_rt0 : (holdPos s).rt0 = s.rt0 := rfl
@[simp] theorem holdPos_rt1 : (holdPos s).rt1 = s.rt1 := rfl
@[simp] theorem holdPos_sel : (holdPos s).sel = s.sel := rfl
@[simp] theorem holdPos_ready : (holdPos s).ready = s.ready := rfl
@[simp] theorem holdPos_role : (holdPos s).role = s.role := rfl
@[simp] theorem holdPos_reply : (holdPos s).reply = s.reply := rfl
@[simp] theorem holdPos_inputs : (holdPos s).inputs = s.inputs := rfl

/-! `reportRole` -/

@[simp] theorem reportRole_cfg (r : Option BlockRole) : (reportRole r s).cfg = s.cfg := rfl
@[simp] theorem reportRole_w (r : Option BlockRole) : (reportRole r s).w = s.w := rfl
@[simp] theorem reportRole_pos (r : Option BlockRole) : (reportRole r s).pos = s.pos := rfl
@[simp] theorem reportRole_state (r : Option BlockRole) : (reportRole r s).state = s.state := rfl
@[simp] theorem reportRole_slot (r : Option BlockRole) : (reportRole r s).slot = s.slot := rfl
@[simp] theorem reportRole_pi (r : Option BlockRole) : (reportRole r s).pi = s.pi := rfl
@[simp] theorem reportRole_ps (r : Option BlockRole) : (reportRole r s).ps = s.ps := rfl
@[simp] theorem reportRole_rt0 (r : Option BlockRole) : (reportRole r s).rt0 = s.rt0 := rfl
@[simp] theorem reportRole_rt1 (r : Option BlockRole) : (reportRole r s).rt1 = s.rt1 := rfl
@[simp] theorem reportRole_sel (r : Option BlockRole) : (reportRole r s).sel = s.sel := rfl
@[simp] theorem reportRole_ready (r : Option BlockRole) : (reportRole r s).ready = s.ready := rfl
@[simp] theorem reportRole_role (r : Option BlockRole) : (reportRole r s).role = r := rfl
@[simp] theorem reportRole_reply (r : Option BlockRole) : (reportRole r s).reply = s.reply := rfl
@[simp] theorem reportRole_inputs (r : Option BlockRole) : (reportRole r s).inputs = s.inputs := rfl

/-! `driveRole` -/

@[simp] theorem driveRole_cfg : (driveRole s).cfg = s.cfg := rfl
@[simp] theorem driveRole_w : (driveRole s).w = s.w := rfl
@[simp] theorem driveRole_pos : (driveRole s).pos = s.pos := rfl
@[simp] theorem driveRole_state : (driveRole s).state = s.state := rfl
@[simp] theorem driveRole_slot : (driveRole s).slot = s.slot := rfl
@[simp] theorem driveRole_pi : (driveRole s).pi = s.pi := rfl
@[simp] theorem driveRole_ps : (driveRole s).ps = s.ps := rfl
@[simp] theorem driveRole_rt0 : (driveRole s).rt0 = s.rt0 := rfl
@[simp] theorem driveRole_rt1 : (driveRole s).rt1 = s.rt1 := rfl
@[simp] theorem driveRole_sel : (driveRole s).sel = s.sel := rfl
@[simp] theorem driveRole_ready : (driveRole s).ready = s.ready := rfl
@[simp] theorem driveRole_role : (driveRole s).role = roleOf s.cfg s.w := rfl
@[simp] theorem driveRole_reply : (driveRole s).reply = s.reply := rfl
@[simp] theorem driveRole_inputs : (driveRole s).inputs = s.inputs := rfl

/-! `capture` -/

@[simp] theorem capture_cfg (k : Fin 4) : (capture k s).cfg = s.cfg := rfl
@[simp] theorem capture_w (k : Fin 4) : (capture k s).w = s.w := rfl
@[simp] theorem capture_pos (k : Fin 4) : (capture k s).pos = s.pos := rfl
@[simp] theorem capture_state (k : Fin 4) : (capture k s).state = s.state := rfl
@[simp] theorem capture_slot (k : Fin 4) : (capture k s).slot = s.slot.set k (dataOf s.w) := rfl
@[simp] theorem capture_pi (k : Fin 4) : (capture k s).pi = s.pi := rfl
@[simp] theorem capture_ps (k : Fin 4) : (capture k s).ps = s.ps := rfl
@[simp] theorem capture_rt0 (k : Fin 4) : (capture k s).rt0 = s.rt0 := rfl
@[simp] theorem capture_rt1 (k : Fin 4) : (capture k s).rt1 = s.rt1 := rfl
@[simp] theorem capture_sel (k : Fin 4) : (capture k s).sel = s.sel := rfl
@[simp] theorem capture_ready (k : Fin 4) : (capture k s).ready = s.ready := rfl
@[simp] theorem capture_role (k : Fin 4) : (capture k s).role = s.role := rfl
@[simp] theorem capture_reply (k : Fin 4) : (capture k s).reply = s.reply := rfl
@[simp] theorem capture_inputs (k : Fin 4) : (capture k s).inputs = s.inputs := rfl

/-! `enter` -/

@[simp] theorem enter_cfg (q : SyncState) : (enter q s).cfg = s.cfg := rfl
@[simp] theorem enter_w (q : SyncState) : (enter q s).w = s.w := rfl
@[simp] theorem enter_pos (q : SyncState) : (enter q s).pos = 0 := rfl
@[simp] theorem enter_state (q : SyncState) : (enter q s).state = q := rfl
@[simp] theorem enter_slot (q : SyncState) : (enter q s).slot = s.slot := rfl
@[simp] theorem enter_pi (q : SyncState) : (enter q s).pi = s.pi := rfl
@[simp] theorem enter_ps (q : SyncState) : (enter q s).ps = s.ps := rfl
@[simp] theorem enter_rt0 (q : SyncState) : (enter q s).rt0 = s.rt0 := rfl
@[simp] theorem enter_rt1 (q : SyncState) : (enter q s).rt1 = s.rt1 := rfl
@[simp] theorem enter_sel (q : SyncState) : (enter q s).sel = s.sel := rfl
@[simp] theorem enter_ready (q : SyncState) : (enter q s).ready = s.ready := rfl
@[simp] theorem enter_role (q : SyncState) : (enter q s).role = s.role := rfl
@[simp] theorem enter_reply (q : SyncState) : (enter q s).reply = s.reply := rfl
@[simp] theorem enter_inputs (q : SyncState) : (enter q s).inputs = s.inputs := rfl

/-! `recordPi` -/

@[simp] theorem recordPi_cfg (a : DataWord) : (recordPi a s).cfg = s.cfg := rfl
@[simp] theorem recordPi_w (a : DataWord) : (recordPi a s).w = s.w := rfl
@[simp] theorem recordPi_pos (a : DataWord) : (recordPi a s).pos = s.pos := rfl
@[simp] theorem recordPi_state (a : DataWord) : (recordPi a s).state = s.state := rfl
@[simp] theorem recordPi_slot (a : DataWord) : (recordPi a s).slot = s.slot := rfl
@[simp] theorem recordPi_pi (a : DataWord) : (recordPi a s).pi = a := rfl
@[simp] theorem recordPi_ps (a : DataWord) : (recordPi a s).ps = s.ps := rfl
@[simp] theorem recordPi_rt0 (a : DataWord) : (recordPi a s).rt0 = s.rt0 := rfl
@[simp] theorem recordPi_rt1 (a : DataWord) : (recordPi a s).rt1 = s.rt1 := rfl
@[simp] theorem recordPi_sel (a : DataWord) : (recordPi a s).sel = s.sel := rfl
@[simp] theorem recordPi_ready (a : DataWord) : (recordPi a s).ready = s.ready := rfl
@[simp] theorem recordPi_role (a : DataWord) : (recordPi a s).role = s.role := rfl
@[simp] theorem recordPi_reply (a : DataWord) : (recordPi a s).reply = s.reply := rfl
@[simp] theorem recordPi_inputs (a : DataWord) : (recordPi a s).inputs = s.inputs := rfl

/-! `answer` -/

@[simp] theorem answer_cfg (r : Reply) : (answer r s).cfg = s.cfg := rfl
@[simp] theorem answer_w (r : Reply) : (answer r s).w = s.w := rfl
@[simp] theorem answer_pos (r : Reply) : (answer r s).pos = s.pos := rfl
@[simp] theorem answer_state (r : Reply) : (answer r s).state = s.state := rfl
@[simp] theorem answer_slot (r : Reply) : (answer r s).slot = s.slot := rfl
@[simp] theorem answer_pi (r : Reply) : (answer r s).pi = s.pi := rfl
@[simp] theorem answer_ps (r : Reply) : (answer r s).ps = s.ps := rfl
@[simp] theorem answer_rt0 (r : Reply) : (answer r s).rt0 = s.rt0 := rfl
@[simp] theorem answer_rt1 (r : Reply) : (answer r s).rt1 = s.rt1 := rfl
@[simp] theorem answer_sel (r : Reply) : (answer r s).sel = s.sel := rfl
@[simp] theorem answer_ready (r : Reply) : (answer r s).ready = s.ready := rfl
@[simp] theorem answer_role (r : Reply) : (answer r s).role = s.role := rfl
@[simp] theorem answer_reply (r : Reply) : (answer r s).reply = some r := rfl
@[simp] theorem answer_inputs (r : Reply) : (answer r s).inputs = s.inputs := rfl

/-! `present` -/

@[simp] theorem present_cfg (xs : List Presented) : (s.present xs).cfg = s.cfg := rfl
@[simp] theorem present_w (xs : List Presented) : (s.present xs).w = s.w := rfl
@[simp] theorem present_pos (xs : List Presented) : (s.present xs).pos = s.pos := rfl
@[simp] theorem present_state (xs : List Presented) : (s.present xs).state = s.state := rfl
@[simp] theorem present_slot (xs : List Presented) : (s.present xs).slot = s.slot := rfl
@[simp] theorem present_pi (xs : List Presented) : (s.present xs).pi = s.pi := rfl
@[simp] theorem present_ps (xs : List Presented) : (s.present xs).ps = s.ps := rfl
@[simp] theorem present_rt0 (xs : List Presented) : (s.present xs).rt0 = s.rt0 := rfl
@[simp] theorem present_rt1 (xs : List Presented) : (s.present xs).rt1 = s.rt1 := rfl
@[simp] theorem present_sel (xs : List Presented) : (s.present xs).sel = s.sel := rfl
@[simp] theorem present_ready (xs : List Presented) : (s.present xs).ready = s.ready := rfl
@[simp] theorem present_role (xs : List Presented) : (s.present xs).role = s.role := rfl
@[simp] theorem present_reply (xs : List Presented) : (s.present xs).reply = s.reply := rfl
@[simp] theorem present_inputs (xs : List Presented) : (s.present xs).inputs = xs := rfl

/-! A space replaced leaves every field but that space alone. -/

@[simp] theorem setSpace_cfg (sp : Space) (m : Memory) : (s.setSpace sp m).cfg = s.cfg := by
  cases sp <;> rfl
@[simp] theorem setSpace_w (sp : Space) (m : Memory) : (s.setSpace sp m).w = s.w := by
  cases sp <;> rfl
@[simp] theorem setSpace_pos (sp : Space) (m : Memory) : (s.setSpace sp m).pos = s.pos := by
  cases sp <;> rfl
@[simp] theorem setSpace_state (sp : Space) (m : Memory) : (s.setSpace sp m).state = s.state := by
  cases sp <;> rfl
@[simp] theorem setSpace_slot (sp : Space) (m : Memory) : (s.setSpace sp m).slot = s.slot := by
  cases sp <;> rfl
@[simp] theorem setSpace_pi (sp : Space) (m : Memory) : (s.setSpace sp m).pi = s.pi := by
  cases sp <;> rfl
@[simp] theorem setSpace_sel (sp : Space) (m : Memory) : (s.setSpace sp m).sel = s.sel := by
  cases sp <;> rfl
@[simp] theorem setSpace_ready (sp : Space) (m : Memory) : (s.setSpace sp m).ready = s.ready := by
  cases sp <;> rfl
@[simp] theorem setSpace_role (sp : Space) (m : Memory) : (s.setSpace sp m).role = s.role := by
  cases sp <;> rfl
@[simp] theorem setSpace_reply (sp : Space) (m : Memory) : (s.setSpace sp m).reply = s.reply := by
  cases sp <;> rfl
@[simp] theorem setSpace_inputs (sp : Space) (m : Memory) : (s.setSpace sp m).inputs = s.inputs := by
  cases sp <;> rfl

@[simp] theorem space_setSpace_same (sp : Space) (m : Memory) : (s.setSpace sp m).space sp = m := by
  cases sp <;> rfl

@[simp] theorem space_setSpace_other (sp sp' : Space) (m : Memory) (h : sp' ≠ sp) :
    (s.setSpace sp m).space sp' = s.space sp' := by
  cases sp <;> cases sp' <;> first | rfl | exact absurd rfl h

@[simp] theorem space_ps : s.space .ps = s.ps := rfl

@[simp] theorem space_rt0 : s.space .rt0 = s.rt0 := rfl

@[simp] theorem space_rt1 : s.space .rt1 = s.rt1 := rfl

/-! A word written to a space leaves every register alone. -/

@[simp] theorem memWriteWord_cfg (sp : Space) (k : Nat) (x : DataWord) :
    (memWriteWord sp k x s).cfg = s.cfg :=
  setSpace_cfg s _ _
@[simp] theorem memWriteWord_w (sp : Space) (k : Nat) (x : DataWord) :
    (memWriteWord sp k x s).w = s.w :=
  setSpace_w s _ _
@[simp] theorem memWriteWord_pos (sp : Space) (k : Nat) (x : DataWord) :
    (memWriteWord sp k x s).pos = s.pos :=
  setSpace_pos s _ _
@[simp] theorem memWriteWord_state (sp : Space) (k : Nat) (x : DataWord) :
    (memWriteWord sp k x s).state = s.state :=
  setSpace_state s _ _
@[simp] theorem memWriteWord_slot (sp : Space) (k : Nat) (x : DataWord) :
    (memWriteWord sp k x s).slot = s.slot :=
  setSpace_slot s _ _
@[simp] theorem memWriteWord_pi (sp : Space) (k : Nat) (x : DataWord) :
    (memWriteWord sp k x s).pi = s.pi :=
  setSpace_pi s _ _
@[simp] theorem memWriteWord_sel (sp : Space) (k : Nat) (x : DataWord) :
    (memWriteWord sp k x s).sel = s.sel :=
  setSpace_sel s _ _
@[simp] theorem memWriteWord_ready (sp : Space) (k : Nat) (x : DataWord) :
    (memWriteWord sp k x s).ready = s.ready :=
  setSpace_ready s _ _
@[simp] theorem memWriteWord_role (sp : Space) (k : Nat) (x : DataWord) :
    (memWriteWord sp k x s).role = s.role :=
  setSpace_role s _ _
@[simp] theorem memWriteWord_reply (sp : Space) (k : Nat) (x : DataWord) :
    (memWriteWord sp k x s).reply = s.reply :=
  setSpace_reply s _ _
@[simp] theorem memWriteWord_inputs (sp : Space) (k : Nat) (x : DataWord) :
    (memWriteWord sp k x s).inputs = s.inputs :=
  setSpace_inputs s _ _

end Sys2Proof.Machine
end

