-- ==== Sys2Proof/Laws/Ops.lean ====
section
/-! SUPPORT. One lemma for each shared operation that says once what it can do; proofs about instructions cite these
instead of unfolding the operations. -/

namespace Sys2Proof.Machine

/-! ### Offsets (20_memory.md R53, R57) -/

theorem psOffset_eq (i : BitVec 2) : psOffset i = 2 * i.toNat := by
  revert i; decide

theorem rtOffset_eq (i : BitVec 4) : rtOffset i = 4 * i.toNat := by
  revert i; decide

theorem psOffset_lt (i : BitVec 2) : psOffset i + 1 < Space.ps.size := by
  revert i; decide

theorem rtOffset_lt (i : BitVec 4) (v : BitVec 1) : rtOffset i + 3 < (rtSpace v).size := by
  revert i v; decide

theorem rtSpace_ne_ps (v : BitVec 1) : rtSpace v ≠ .ps := by
  revert v; decide

/-! ### Bytes -/

/-- What a word write leaves at every offset of every space. -/
theorem readByte_memWriteWord (s : State) (sp sp' : Space) (k j : Nat) (x : DataWord) :
    readByte (memWriteWord sp k x s) sp' j =
      if sp' = sp then (if j = k then hi x else if j = k + 1 then lo x else readByte s sp' j)
      else readByte s sp' j := by
  by_cases h : sp' = sp
  · subst h
    simp [readByte, memWriteWord, Memory.read_writeWord]
  · simp [readByte, memWriteWord, h]

@[simp] theorem memWriteWord_space_other (s : State) (sp sp' : Space) (k : Nat) (x : DataWord) (h : sp' ≠ sp) :
    (memWriteWord sp k x s).space sp' = s.space sp' := by
  simp [memWriteWord, h]

/-! ### The ticks -/

/-- What a tick does before the Block Synchronizer: W, POS and the combinational role, and nothing else. -/
theorem receive_eq (b : BitVec 1) (s : State) :
    receive b s = { s with w := shifted s.w b, pos := posNext s, role := roleOf s.cfg (shifted s.w b) } :=
  rfl

/-- The window of a tick, in the spec's own words (41_bit_window.md R110). -/
theorem shifted_window (w : Window) (b : BitVec 1) : shifted w b = (w <<< 1) ||| b.setWidth 26 := by
  apply BitVec.eq_of_getLsbD_eq
  intro i hi
  rcases i with _ | i
  · simp [shifted]
  · have h1 : i < 26 := by omega
    simp [shifted, h1]

/-- SEEKING_A before the 26th bit. -/
theorem seekA_before {s : State} (h : s.pos < 26) : seekA s = s := by
  simp [seekA, Nat.not_le.2 h]

/-- SEEKING_A at a check point that matches. -/
theorem seekA_match {s : State} (h : 26 ≤ s.pos) (hr : s.role = some .A) :
    seekA s = enter .expectingB (capture 0 (holdPos s)) := by
  simp [seekA, h, hr, accepts]

/-- SEEKING_A at a check point that does not match. -/
theorem seekA_mismatch {s : State} (h : 26 ≤ s.pos) (hr : s.role ≠ some .A) : seekA s = holdPos s := by
  simp [seekA, h, hr, accepts]

/-- The three locked states do nothing away from 26. -/
theorem synchronize_locked_off {q : SyncState} {s : State} (hq : q ≠ .seekingA) (h : s.pos ≠ 26) :
    synchronize q s = s := by
  cases q <;> simp_all [synchronize, expectB, expectC, expectD]

theorem expectB_match {s : State} (h : s.pos = 26) (hr : s.role = some .B) :
    expectB s = enter .expectingC (capture 1 s) := by
  simp [expectB, h, hr, accepts]

theorem expectB_mismatch {s : State} (h : s.pos = 26) (hr : s.role ≠ some .B) : expectB s = s := by
  simp [expectB, h, hr, accepts]

theorem expectC_match {s : State} (h : s.pos = 26) (hr : s.role = some .C ∨ s.role = some .Cp) :
    expectC s = enter .expectingD (capture 2 s) := by
  rcases hr with hr | hr <;> simp [expectC, h, hr, accepts]

theorem expectC_mismatch {s : State} (h : s.pos = 26) (hr : s.role ≠ some .C ∧ s.role ≠ some .Cp) :
    expectC s = enter .expectingB s := by
  simp [expectC, h, hr.1, hr.2, accepts]

theorem expectD_match {s : State} (h : s.pos = 26) (hr : s.role = some .D) :
    expectD s = decodeSlots (enter .seekingA (capture 3 s)) := by
  simp [expectD, h, hr, accepts]

theorem expectD_mismatch {s : State} (h : s.pos = 26) (hr : s.role ≠ some .D) : expectD s = s := by
  simp [expectD, h, hr, accepts]

/-! ### The Group Decoder -/

/-- The Group Decoder extracts a program name, extracts a message segment, or does nothing (44_group_decoder.md R150). -/
theorem decodeGroup_cases (a b c d : DataWord) (s : State) :
    ((groupType b = 0#4 ∨ groupType b = 15#4) ∧ decodeGroup a b c d s = extractPs a (psIndex b) d s) ∨
    (groupType b = 2#4 ∧ decodeGroup a b c d s = extractRt a (variantOf b) (rtIndex b) c d s) ∨
    (groupType b ≠ 0#4 ∧ groupType b ≠ 15#4 ∧ groupType b ≠ 2#4 ∧ decodeGroup a b c d s = s) := by
  unfold decodeGroup discardGroup
  split
  · exact .inl ⟨‹_›, rfl⟩
  · split
    · exact .inr (.inl ⟨‹_›, rfl⟩)
    · rename_i h1 h2
      push Not at h1
      exact .inr (.inr ⟨h1.1, h1.2, h2, rfl⟩)

/-- A program-name extraction writes PI and PS and nothing else. -/
theorem extractPs_eq (a : DataWord) (i : BitVec 2) (d : DataWord) (s : State) :
    extractPs a i d s = { s with pi := a, ps := s.ps.writeWord (psOffset i) d } :=
  rfl

/-- A message-text extraction writes PI, SEL and the selected space and nothing else. -/
theorem extractRt_eq (a : DataWord) (v : BitVec 1) (i : BitVec 4) (c d : DataWord) (s : State) :
    extractRt a v i c d s =
      if v = 0#1 then
        { s with pi := a, sel := v, rt0 := (s.rt0.writeWord (rtOffset i) c).writeWord (rtOffset i + 2) d }
      else
        { s with pi := a, sel := v, rt1 := (s.rt1.writeWord (rtOffset i) c).writeWord (rtOffset i + 2) d } := by
  by_cases h : v = 0#1 <;>
    simp [extractRt, rtSpace, h, memWriteWord, State.setSpace, State.space, recordPi, selectVariant]

/-- `reset` in one record (45_output_store_ops.md R172). -/
theorem execReset_eq (s : State) :
    execReset s = .next { s with ps := [], rt0 := [], rt1 := [], state := .seekingA, pos := 0, ready := 1#1 } :=
  rfl

/-! ### The canonical form of a state's spaces -/

/-- The three spaces of a state are in canonical form. -/
abbrev State.spacesWf (s : State) : Prop :=
  s.ps.wf Space.ps.size ∧ s.rt0.wf Space.rt0.size ∧ s.rt1.wf Space.rt1.size

theorem reset_spacesWf : State.reset.spacesWf := by
  decide

theorem extractPs_spacesWf (a : DataWord) (i : BitVec 2) (d : DataWord) {s : State} (h : s.spacesWf) :
    (extractPs a i d s).spacesWf :=
  ⟨Memory.writeWord_wf d h.1 (psOffset_lt i), h.2⟩

theorem extractRt_spacesWf (a : DataWord) (v : BitVec 1) (i : BitVec 4) (c d : DataWord) {s : State} (h : s.spacesWf) :
    (extractRt a v i c d s).spacesWf := by
  have hi0 : rtOffset i + 3 < Space.rt0.size := rtOffset_lt i 0
  have hi1 : rtOffset i + 3 < Space.rt1.size := rtOffset_lt i 1
  rw [extractRt_eq]
  split
  · exact ⟨h.1, Memory.writeWord_wf d (Memory.writeWord_wf c h.2.1 (by omega)) (by omega), h.2.2⟩
  · exact ⟨h.1, h.2.1, Memory.writeWord_wf d (Memory.writeWord_wf c h.2.2 (by omega)) (by omega)⟩

theorem decodeGroup_spacesWf (a b c d : DataWord) {s : State} (h : s.spacesWf) : (decodeGroup a b c d s).spacesWf := by
  rcases decodeGroup_cases a b c d s with ⟨-, he⟩ | ⟨-, he⟩ | ⟨-, -, -, he⟩ <;> rw [he]
  · exact extractPs_spacesWf _ _ _ h
  · exact extractRt_spacesWf _ _ _ _ _ h
  · exact h

end Sys2Proof.Machine
end

