-- ==== Sys2Proof/Laws/PerInstr.lean ====
section
/-! SUPPORT. Facts about every operation as syntax, one lemma per constructor: the bits `encode` writes fit the width of
their format (30_encoding.md R84), so that no encoding is refused for its width. -/

namespace Sys2Proof.Laws.EncodeFits

/-- The bits of the encoding fit the format. -/
def Statement (i : Instr) : Prop :=
  ∀ cfg : Config, (encode cfg i).bits < 2 ^ (encode cfg i).format.width

theorem submitBit0 : Statement (.submitBit0) :=
  fun _ => by simp [encode, Format.width]

theorem submitBit1 : Statement (.submitBit1) :=
  fun _ => by simp [encode, Format.width]

theorem reset (v : BitVec 1) (b : BitVec 1) : Statement (.reset v b) :=
  fun _ => BitVec.isLt _

theorem idle (b : BitVec 1) : Statement (.idle b) :=
  fun _ => BitVec.isLt _

theorem programName : Statement (.programName) :=
  fun _ => by simp [encode, Format.width]

theorem messageText : Statement (.messageText) :=
  fun _ => by simp [encode, Format.width]

theorem isReady : Statement (.isReady) :=
  fun _ => by simp [encode, Format.width]

theorem groupT0ProgramName (a : DataWord) (x : BitVec 10) (i : BitVec 2) (c : DataWord) (d : DataWord) : Statement (.groupT0ProgramName a x i c d) :=
  fun _ => BitVec.isLt _

theorem groupT1Ignored (a : DataWord) (x : BitVec 12) (c : DataWord) (d : DataWord) : Statement (.groupT1Ignored a x c d) :=
  fun _ => BitVec.isLt _

theorem groupT2MessageText (a : DataWord) (x : BitVec 7) (v : BitVec 1) (i : BitVec 4) (c : DataWord) (d : DataWord) : Statement (.groupT2MessageText a x v i c d) :=
  fun _ => BitVec.isLt _

theorem groupT3Ignored (a : DataWord) (x : BitVec 12) (c : DataWord) (d : DataWord) : Statement (.groupT3Ignored a x c d) :=
  fun _ => BitVec.isLt _

theorem groupT4Ignored (a : DataWord) (x : BitVec 12) (c : DataWord) (d : DataWord) : Statement (.groupT4Ignored a x c d) :=
  fun _ => BitVec.isLt _

theorem groupT5Ignored (a : DataWord) (x : BitVec 12) (c : DataWord) (d : DataWord) : Statement (.groupT5Ignored a x c d) :=
  fun _ => BitVec.isLt _

theorem groupT6Ignored (a : DataWord) (x : BitVec 12) (c : DataWord) (d : DataWord) : Statement (.groupT6Ignored a x c d) :=
  fun _ => BitVec.isLt _

theorem groupT7Ignored (a : DataWord) (x : BitVec 12) (c : DataWord) (d : DataWord) : Statement (.groupT7Ignored a x c d) :=
  fun _ => BitVec.isLt _

theorem groupT8Ignored (a : DataWord) (x : BitVec 12) (c : DataWord) (d : DataWord) : Statement (.groupT8Ignored a x c d) :=
  fun _ => BitVec.isLt _

theorem groupT9Ignored (a : DataWord) (x : BitVec 12) (c : DataWord) (d : DataWord) : Statement (.groupT9Ignored a x c d) :=
  fun _ => BitVec.isLt _

theorem groupT10Ignored (a : DataWord) (x : BitVec 12) (c : DataWord) (d : DataWord) : Statement (.groupT10Ignored a x c d) :=
  fun _ => BitVec.isLt _

theorem groupT11Ignored (a : DataWord) (x : BitVec 12) (c : DataWord) (d : DataWord) : Statement (.groupT11Ignored a x c d) :=
  fun _ => BitVec.isLt _

theorem groupT12Ignored (a : DataWord) (x : BitVec 12) (c : DataWord) (d : DataWord) : Statement (.groupT12Ignored a x c d) :=
  fun _ => BitVec.isLt _

theorem groupT13Ignored (a : DataWord) (x : BitVec 12) (c : DataWord) (d : DataWord) : Statement (.groupT13Ignored a x c d) :=
  fun _ => BitVec.isLt _

theorem groupT14Ignored (a : DataWord) (x : BitVec 12) (c : DataWord) (d : DataWord) : Statement (.groupT14Ignored a x c d) :=
  fun _ => BitVec.isLt _

theorem groupT15ProgramName (a : DataWord) (x : BitVec 10) (i : BitVec 2) (c : DataWord) (d : DataWord) : Statement (.groupT15ProgramName a x i c d) :=
  fun _ => BitVec.isLt _

theorem roleA : Statement (.roleA) :=
  fun _ => BitVec.isLt _

theorem roleB : Statement (.roleB) :=
  fun _ => BitVec.isLt _

theorem roleC : Statement (.roleC) :=
  fun _ => BitVec.isLt _

theorem roleCp : Statement (.roleCp) :=
  fun _ => BitVec.isLt _

theorem roleD : Statement (.roleD) :=
  fun _ => BitVec.isLt _

end Sys2Proof.Laws.EncodeFits
end

