-- ==== Sys2Proof/Laws/Run.lean ====
section
/-! SUPPORT. Runs of the machine, unfolded once: a run of one step more goes on from the step's next state. -/

namespace Sys2Proof.Machine

/-- Of any core: a run of `k + 1` steps whose first step answers `t` is the run of `k` steps from `t`. -/
theorem core_run_succ_next (M : Host.Core) {k : Nat} {s t : M.State} (h : M.step s = .next t) :
    M.run (k + 1) s = M.run k t := by
  simp only [Host.Core.run, h]

/-- Of any core: a run that ends in a next state took a first step that did. -/
theorem core_run_succ_inv (M : Host.Core) {k : Nat} {s u : M.State} (h : M.run (k + 1) s = .next u) :
    ∃ t, M.step s = .next t ∧ M.run k t = .next u := by
  simp only [Host.Core.run] at h
  split at h
  · exact ⟨_, ‹_›, h⟩
  · cases h
  · cases h

/-- A run of `k + 1` steps whose first step answers `t` is the run of `k` steps from `t`. -/
theorem run_succ_next {k : Nat} {s t : State} (h : step s = .next t) :
    Host.Core.run Sys2Proof.core (k + 1) s = Host.Core.run Sys2Proof.core k t :=
  core_run_succ_next Sys2Proof.core h

/-- A run of no steps answers the state it was given. -/
theorem run_zero (s : State) : Host.Core.run Sys2Proof.core 0 s = .next s := rfl

/-- A run that ends in a next state took a first step that did. -/
theorem run_succ_inv {k : Nat} {s u : State} (h : Host.Core.run Sys2Proof.core (k + 1) s = .next u) :
    ∃ t, step s = .next t ∧ Host.Core.run Sys2Proof.core k t = .next u :=
  core_run_succ_inv Sys2Proof.core h

end Sys2Proof.Machine
end

