-- ==== Sys2Proof/Tests/Slice0.lean ====
section
/-! SUPPORT. Tests on words and numbers taken from spec/95_test_vectors.md and spec/opcode_table.json, the smoke test of
WellFormed, and for every obligation with hypotheses a witness that meets them. -/

namespace Sys2Proof.Tests

open Sys2Proof Sys2Proof.Machine

/-! ### WellFormed: each check refuses an ill-formed term -/

/-- A configuration with `OFFS[A] = OFFS[D]`. -/
def tiedConfig : Config := { referenceConfig with offsD := 0x3D8 }

/-- A configuration whose counter cannot hold 26. -/
def narrowConfig : Config := { referenceConfig with posw := 4 }

theorem test_reference_is_wellFormed : referenceConfig.wellFormed = true := by decide

theorem test_tied_constants_refused : tiedConfig.offsDistinct = false ∧ tiedConfig.wellFormed = false := by decide

theorem test_narrow_counter_refused : narrowConfig.poswEnough = false ∧ narrowConfig.wellFormed = false := by decide

theorem test_role_row_needs_distinct_constants :
    Instr.roleA.wellFormed tiedConfig = false ∧ Instr.roleA.wellFormed referenceConfig = true := by decide

/-! ### Decode: every row by a word written out from the table -/

/-- The words of 30_encoding.md R80; the two ignored bits of RESET are kept. -/
theorem test_decode_cmd :
    decodeTableWord 8 0b010 = some .submitBit0 ∧
    decodeTableWord 8 0b011 = some .submitBit1 ∧
    decodeTableWord 8 0b110 = some (.reset 1#1 0#1) ∧
    decodeTableWord 8 0b001 = some (.idle 1#1) := by decide

/-- The ports in the order of the table's rows (log 8). -/
theorem test_decode_port :
    decodeTableWord 0 0 = some .programName ∧
    decodeTableWord 0 1 = some .messageText ∧
    decodeTableWord 0 2 = some .isReady := by decide

/-- The reference syndromes of 40_syndrome_decoder.md R104. -/
theorem test_decode_syndrome :
    decodeTableWord 16 0b1111011000 = some .roleA ∧
    decodeTableWord 16 0b1111010100 = some .roleB ∧
    decodeTableWord 16 0b1001011100 = some .roleC ∧
    decodeTableWord 16 0b1111001100 = some .roleCp ∧
    decodeTableWord 16 0b1001011000 = some .roleD := by decide

/-- Group views with A = 0xBEEF, C = 0x1111, D = 0x2222 and the word B shown: the type is its top digit. -/
theorem test_decode_group :
    decodeTableWord 64 0xBEEF040611112222 = some (.groupT0ProgramName 0xBEEF 0x101 2 0x1111 0x2222) ∧
    decodeTableWord 64 0xBEEF1ABC11112222 = some (.groupT1Ignored 0xBEEF 0xABC 0x1111 0x2222) ∧
    decodeTableWord 64 0xBEEF281511112222 = some (.groupT2MessageText 0xBEEF 0x40 1 5 0x1111 0x2222) ∧
    decodeTableWord 64 0xBEEF300111112222 = some (.groupT3Ignored 0xBEEF 0x001 0x1111 0x2222) ∧
    decodeTableWord 64 0xBEEF400011112222 = some (.groupT4Ignored 0xBEEF 0x000 0x1111 0x2222) ∧
    decodeTableWord 64 0xBEEF5FFF11112222 = some (.groupT5Ignored 0xBEEF 0xFFF 0x1111 0x2222) ∧
    decodeTableWord 64 0xBEEF612311112222 = some (.groupT6Ignored 0xBEEF 0x123 0x1111 0x2222) ∧
    decodeTableWord 64 0xBEEF745611112222 = some (.groupT7Ignored 0xBEEF 0x456 0x1111 0x2222) ∧
    decodeTableWord 64 0xBEEF878911112222 = some (.groupT8Ignored 0xBEEF 0x789 0x1111 0x2222) ∧
    decodeTableWord 64 0xBEEF980011112222 = some (.groupT9Ignored 0xBEEF 0x800 0x1111 0x2222) ∧
    decodeTableWord 64 0xBEEFA01511112222 = some (.groupT10Ignored 0xBEEF 0x015 0x1111 0x2222) ∧
    decodeTableWord 64 0xBEEFB0F011112222 = some (.groupT11Ignored 0xBEEF 0x0F0 0x1111 0x2222) ∧
    decodeTableWord 64 0xBEEFC00F11112222 = some (.groupT12Ignored 0xBEEF 0x00F 0x1111 0x2222) ∧
    decodeTableWord 64 0xBEEFD80111112222 = some (.groupT13Ignored 0xBEEF 0x801 0x1111 0x2222) ∧
    decodeTableWord 64 0xBEEFE7FE11112222 = some (.groupT14Ignored 0xBEEF 0x7FE 0x1111 0x2222) ∧
    decodeTableWord 64 0xBEEFFFFD11112222 = some (.groupT15ProgramName 0xBEEF 0x3FF 1 0x1111 0x2222) := by decide

/-- Rejections by name (30_encoding.md R78): the all-zero syndrome is the role NONE. -/
theorem test_decode_rejects :
    decode referenceConfig ⟨.cmd, 8⟩ = .error .tooWide ∧
    decode referenceConfig ⟨.port, 3⟩ = .error .noSuchPort ∧
    decode referenceConfig ⟨.syndrome, 1024⟩ = .error .tooWide ∧
    decode referenceConfig ⟨.syndrome, 0⟩ = .error .roleNone ∧
    decode referenceConfig ⟨.group, 2 ^ 64⟩ = .error .tooWide := ⟨rfl, rfl, rfl, rfl, rfl⟩

/-! ### Syndrome Decoder (vectors T1, T2, T3) -/

/-- Vector T1. -/
theorem test_syndromes :
    [0x0000000#26, 0x0000001#26, 0x0000200#26, 0x0008000#26, 0x2000000#26, 0x3FFFFFF#26, 0x048D06A#26, 0x048D06B#26,
      0x248D06A#26, 0x0100AEA#26].map (syn referenceConfig) =
    [0x000, 0x31B, 0x355, 0x2DC, 0x200, 0x19E, 0x3D8, 0x0C3, 0x1D8, 0x3C4] := by decide

/-- Vectors T1 and T2: one role each, and NONE. -/
theorem test_roles :
    [0x00000FC#26, 0x0000198#26, 0x0000168#26, 0x0000350#26, 0x00001B4#26, 0x32BF92C#26, 0x0100AEA#26, 0#26].map
      (roleOf referenceConfig) =
    [some .A, some .B, some .C, some .Cp, some .D, some .Cp, none, none] := by decide

/-- Vector T3. -/
theorem test_block_words :
    blockWord referenceConfig .A 0xFFFF = 0x3FFFC31 ∧
    blockWord referenceConfig .B 0x2815 = 0x0A05435 ∧
    blockWord referenceConfig .C 0x4869 = 0x121A49C ∧
    blockWord referenceConfig .Cp 0x4869 = 0x121A6A4 ∧
    blockWord referenceConfig .D 0x4142 = 0x10508CA := by decide

/-- Vector T3, data recovery. -/
theorem test_data_recovery :
    dataOf 0x048D06A = 0x1234 ∧ dataOf 0x3FFFC31 = 0xFFFF ∧ dataOf 0x00003FF = 0 ∧ dataOf 0x0000400 = 1 := by decide

/-- The codes of 30_encoding.md R83 and the slots of 43_group_assembler.md R140. -/
theorem test_codes :
    [SyncState.seekingA, .expectingB, .expectingC, .expectingD].map stateCode = [0, 1, 2, 3] ∧
    [some BlockRole.A, some .B, some .C, some .Cp, some .D, none].map roleCode = [0, 1, 2, 3, 4, 7] ∧
    [BlockRole.A, .B, .C, .Cp, .D].map slotOf = [0, 1, 2, 2, 3] := by decide

/-! ### One tick (vectors T4 to T7) -/

/-- The next state of an operation, where it answers one. -/
def nextOf : Result → Option State
  | .next s => some s
  | .fault _ => none
  | .refused _ => none

/-- The state after reset, put at a STATE and POS. -/
def at_ (q : SyncState) (pos : Nat) (w : Window) : State :=
  { State.reset with state := q, pos := pos, w := w }

/-- STATE, POS and the slots after the tick that completes the window `w`. -/
def tickTo (q : SyncState) (pos : Nat) (w : Window) : Option (SyncState × Nat × Vector DataWord 4) :=
  (nextOf (exec (bitInstr (w.extractLsb' 0 1)) (at_ q pos (w >>> 1)))).map (fun s => (s.state, s.pos, s.slot))

/-- Vector T4. -/
theorem test_shift :
    shifted 0x0000000 1 = 0x0000001 ∧ shifted 0x0246835 0 = 0x048D06A ∧ shifted 0x3FFFFFF 0 = 0x3FFFFFE ∧
    shifted 0x2000000 1 = 0x0000001 ∧ shifted 0x1555555 1 = 0x2AAAAAB := by decide

/-- Vector T6, SEEKING_A. -/
theorem test_tick_seekingA :
    tickTo .seekingA 3 0x048D06A = some (.seekingA, 4, #v[0, 0, 0, 0]) ∧
    tickTo .seekingA 25 0x048D06A = some (.expectingB, 0, #v[0x1234, 0, 0, 0]) ∧
    tickTo .seekingA 26 0x048D06A = some (.expectingB, 0, #v[0x1234, 0, 0, 0]) ∧
    tickTo .seekingA 26 0x1912341 = some (.seekingA, 26, #v[0, 0, 0, 0]) ∧
    tickTo .seekingA 26 0x0000AEA = some (.seekingA, 26, #v[0, 0, 0, 0]) := by decide

/-- Vector T6, EXPECTING_B. -/
theorem test_tick_expectingB :
    tickTo .expectingB 25 0x0000AEA = some (.expectingC, 0, #v[0, 0x0002, 0, 0]) ∧
    tickTo .expectingB 25 0x0100AEA = some (.expectingB, 26, #v[0, 0, 0, 0]) ∧
    tickTo .expectingB 25 0x10508CA = some (.expectingB, 26, #v[0, 0, 0, 0]) ∧
    tickTo .expectingB 26 0x02015D5 = some (.expectingB, 27, #v[0, 0, 0, 0]) ∧
    tickTo .expectingB 255 0x2B2BFB1 = some (.expectingB, 0, #v[0, 0, 0, 0]) := by decide

/-- Vector T6, EXPECTING_C. -/
theorem test_tick_expectingC :
    tickTo .expectingC 25 0x32BFB14 = some (.expectingD, 0, #v[0, 0, 0xCAFE, 0]) ∧
    tickTo .expectingC 25 0x32BF92C = some (.expectingD, 0, #v[0, 0, 0xCAFE, 0]) ∧
    tickTo .expectingC 25 0x12BFB14 = some (.expectingB, 0, #v[0, 0, 0, 0]) ∧
    tickTo .expectingC 25 0x0000AEA = some (.expectingB, 0, #v[0, 0, 0, 0]) ∧
    tickTo .expectingC 12 0x32BFB14 = some (.expectingC, 13, #v[0, 0, 0, 0]) := by decide

/-- Vector T6, EXPECTING_D. -/
theorem test_tick_expectingD :
    tickTo .expectingD 25 0x10508CA = some (.seekingA, 0, #v[0, 0, 0, 0x4142]) ∧
    tickTo .expectingD 25 0x048D06A = some (.expectingD, 26, #v[0, 0, 0, 0]) ∧
    tickTo .expectingD 26 0x10508CA = some (.expectingD, 27, #v[0, 0, 0, 0]) := by decide

/-- Vector T10, tick 104: PI and bytes 4 and 5 of PS, the others as they were. -/
theorem test_tick_completes_group :
    (nextOf (exec .submitBit0 { at_ .expectingD 25 0x0828465 with
        slot := #v[0x1234, 0x0002, 0xCAFE, 0]
        ps := [(0, 0x11), (1, 0x22), (2, 0x33), (3, 0x44), (4, 0x55), (5, 0x66), (6, 0x77), (7, 0x88)] })).map
      (fun s => (s.w, s.pi, memRead s .ps 0 8)) =
    some (0x10508CA, 0x1234, [0x11, 0x22, 0x33, 0x44, 0x41, 0x42, 0x77, 0x88]) := by decide

/-- Vector T7: reset with bit 0, one bit before an A match. -/
theorem test_reset_drops_bit :
    (nextOf (step ((at_ .seekingA 25 0x0246835).present [.cmd 0b110]))).map (fun s => (s.state, s.pos, s.w, s.ready)) =
    some (.seekingA, 0, 0x0246835, 1) := by decide

/-- Vector T7: `cmd = 0b001` changes nothing but the list of what is presented. -/
theorem test_idle :
    nextOf (step ((at_ .seekingA 25 0x0246835).present [.cmd 0b001])) = some (at_ .seekingA 25 0x0246835) := by decide

/-- Vector T14, mid-lock: STATE, POS and the buffers are reset, W and the slots kept. -/
theorem test_reset_mid_lock :
    (nextOf (exec (.reset 0 0) { at_ .expectingC 8 0x00AEACA with
        slot := #v[0x1234, 0x0002, 0, 0], ps := [(3, 0x41)], rt1 := [(20, 0x48)], ready := 0 })).map
      (fun s => decide (s.state = .seekingA ∧ s.pos = 0 ∧ s.w = 0x00AEACA ∧ s.slot = #v[0x1234, 0x0002, 0, 0] ∧
        s.ps = [] ∧ s.rt1 = [] ∧ s.ready = 1)) = some true := by decide

/-! ### Group rows (vectors T11 to T13) -/

/-- PI, PS, RT0, RT1 and SEL. -/
structure Outputs where
  pi : DataWord
  ps : Memory
  rt0 : Memory
  rt1 : Memory
  sel : BitVec 1
deriving DecidableEq, Repr

/-- The outputs after `decode_group` on A = 0xAAAA, the word B shown, C = 0x4344, D = 0x4546. -/
def outputsOf (b : DataWord) : Option Outputs :=
  match decode referenceConfig ⟨.group, (groupView 0xAAAA b 0x4344 0x4546).toNat⟩ with
  | .ok i => (nextOf (exec i State.reset)).map (fun s => ⟨s.pi, s.ps, s.rt0, s.rt1, s.sel⟩)
  | .error _ => none

/-- Vector T11. -/
theorem test_program_name_groups :
    outputsOf 0x0000 = some ⟨0xAAAA, [(0, 0x45), (1, 0x46)], [], [], 0⟩ ∧
    outputsOf 0x0FFF = some ⟨0xAAAA, [(6, 0x45), (7, 0x46)], [], [], 0⟩ ∧
    outputsOf 0xF002 = some ⟨0xAAAA, [(4, 0x45), (5, 0x46)], [], [], 0⟩ ∧
    outputsOf 0xFFFD = some ⟨0xAAAA, [(2, 0x45), (3, 0x46)], [], [], 0⟩ := by decide

/-- Vector T12. -/
theorem test_message_text_groups :
    outputsOf 0x2000 = some ⟨0xAAAA, [], [(0, 0x43), (1, 0x44), (2, 0x45), (3, 0x46)], [], 0⟩ ∧
    outputsOf 0x201F = some ⟨0xAAAA, [], [], [(60, 0x43), (61, 0x44), (62, 0x45), (63, 0x46)], 1⟩ ∧
    outputsOf 0x2FEA = some ⟨0xAAAA, [], [(40, 0x43), (41, 0x44), (42, 0x45), (43, 0x46)], [], 0⟩ ∧
    outputsOf 0x2815 = some ⟨0xAAAA, [], [], [(20, 0x43), (21, 0x44), (22, 0x45), (23, 0x46)], 1⟩ := by decide

/-- Vector T13. -/
theorem test_ignored_groups :
    [0x1000#16, 0x3000, 0x4000, 0x5FFF, 0xA015, 0xE000].map outputsOf =
      List.replicate 6 (some ⟨0, [], [], [], 0⟩) := by decide

/-! ### Reads (vector T15, programs P1 and P2) -/

/-- The reads of a state with "AB" in PS[4..5], "Hi !" in RT1[20..23] and SEL = 1. -/
def readable : State :=
  { State.reset with ps := [(4, 0x41), (5, 0x42)], rt1 := [(20, 0x48), (21, 0x69), (22, 0x20), (23, 0x21)], sel := 1 }

theorem test_program_name :
    (nextOf (exec .programName readable)).bind (·.reply) = some (.programName [0, 0, 0, 0, 0x41, 0x42, 0, 0]) := by decide

theorem test_message_text :
    (nextOf (exec .messageText readable)).bind (·.reply) =
      some (.messageText (List.replicate 20 0 ++ [0x48, 0x69, 0x20, 0x21] ++ List.replicate 40 0)) := by decide

theorem test_is_ready :
    (nextOf (exec .isReady { State.reset with ready := 0 })).bind (·.reply) = some (.isReady 0) ∧
    (nextOf (exec .isReady State.reset)).bind (·.reply) = some (.isReady 1) := by decide

/-- `ps_out` with PS[0] most significant (30_encoding.md R80). -/
theorem test_ps_out : psOut readable = 0x0000000041420000 := by decide

/-! ### The first step after reset on a word of each format (log 9) -/

theorem test_fetch_cmd_and_port :
    (nextOf (step (State.reset.withFetchWord 8 0b011))).map (fun s => (s.w, s.pos)) = some (1, 1) ∧
    (nextOf (step (State.reset.withFetchWord 0 2))).bind (·.reply) = some (.isReady 1) := by decide

theorem test_fetch_syndrome :
    (nextOf (step (State.reset.withFetchWord 16 0x3D8))).map (·.role) = some (some .A) ∧
    (nextOf (step (State.reset.withFetchWord 16 0x258))).map (·.role) = some (some .D) := by decide

/-- Program P2's group: variant 1, index 5, "Hi !". -/
theorem test_fetch_group :
    (nextOf (step (State.reset.withFetchWord 64 0x1234201548692021))).map (fun s => (s.pi, s.rt1, s.sel)) =
      some (0x1234, [(20, 0x48), (21, 0x69), (22, 0x20), (23, 0x21)], 1) := by decide

/-! ### Witnesses: states and operands that meet the hypotheses of the obligations

Each is named after the obligation it serves. An obligation that is not named here has no hypothesis. -/

/-- A configuration whose counter is as narrow as 00_scope.md R7 allows. -/
def smallConfig : Config := { referenceConfig with posw := 5 }

/-- A state of a `smallConfig` core that stalls in EXPECTING_B. -/
def stalled : State := { at_ .expectingB 26 0x0100AEA with cfg := smallConfig }

/-- The same in EXPECTING_D. -/
def stalledD : State := { stalled with state := .expectingD }

/-- A word of each role with its data: vectors T2 and T3. -/
def wordA : Window := 0x048D06A
def wordB : Window := 0x0000AEA
def wordC : Window := 0x32BFB14
def wordCp : Window := 0x32BF92C
def wordD : Window := 0x10508CA

/-- One bit before the window `w` is complete. -/
def before (q : SyncState) (pos : Nat) (w : Window) : State := at_ q pos (w >>> 1)

theorem witness_DecodeOfEncodeIsTheOperation :
    Instr.wellFormed referenceConfig .roleCp = true ∧
    Instr.wellFormed referenceConfig (.groupT2MessageText 0xFFFF 0x7F 1 15 0xFFFF 0xFFFF) = true := by decide

theorem witness_EncodeOfDecodeIsTheWord :
    decode referenceConfig ⟨.syndrome, 0x25C⟩ = .ok .roleC ∧
    decode referenceConfig ⟨.cmd, 7⟩ = .ok (.reset 1 1) ∧
    decode referenceConfig ⟨.port, 2⟩ = .ok .isReady := ⟨rfl, rfl, rfl⟩

theorem witness_StepPerformsThePresentedOperation :
    State.reset.cfg.wellFormed = true ∧ State.reset.inputs = [] ∧
    (State.reset.present [.cmd 0b111]).inputs = .cmd 0b111 :: [] ∧
    decode referenceConfig ⟨.cmd, (0b111#3).toNat⟩ = .ok (.reset 1 1) ∧
    (State.reset.present [.read .rtOut]).inputs = .read .rtOut :: [] ∧ portOfNumber 1 = some .rtOut ∧
    decode referenceConfig ⟨.port, 1⟩ = .ok .messageText := ⟨rfl, rfl, rfl, rfl, rfl, rfl, rfl⟩

/-- Both sides of the equivalence, and a legal configuration at the smallest width. -/
theorem witness_StepRefusesExactlyIllegalConfigurations :
    ¬ [tiedConfig.offsA, tiedConfig.offsB, tiedConfig.offsC, tiedConfig.offsCp, tiedConfig.offsD].Nodup ∧
    narrowConfig.posw < 5 ∧ smallConfig.wellFormed = true := by decide

theorem witness_EveryOperationCompletes : stalled.cfg.wellFormed = true := by decide

theorem witness_ParametersAreNeverWritten : step State.reset = .next State.reset := rfl

theorem before_inv (q : SyncState) (pos : Nat) (w : Window) (h : pos < 26) : (before q pos w).Inv where
  configLegal := show referenceConfig.wellFormed = true by decide
  posInWidth := by change pos < 256; omega
  posSeeking := fun _ => by change pos ≤ 26; omega
  posExpectingC := fun _ => h
  psCanonical := show Memory.wf 8 [] by decide
  rt0Canonical := show Memory.wf 64 [] by decide
  rt1Canonical := show Memory.wf 64 [] by decide

/-- At the check point of EXPECTING_C, and in the stall, whose counter is at its last value. -/
theorem witness_StepKeepsTheInvariant :
    (before .expectingC 25 wordC).Inv ∧ (∃ t, step ((before .expectingC 25 wordC).present [bitCommand 0]) = .next t) ∧
    State.reset.Inv ∧ step State.reset = .next State.reset :=
  ⟨before_inv _ _ _ (by decide), ⟨_, rfl⟩, before_inv .seekingA 0 0 (by decide), rfl⟩

theorem witness_ResetEstablishesTheInvariant :
    (State.powerOn referenceConfig 5 200 #v[1, 2, 3, 4] 7 [(9, 0)] [] [] 1).cfg.wellFormed = true := by decide

theorem witness_BitsOfAWordFillTheWindow : State.reset.cfg.wellFormed = true := by decide

/-- Each role and none, under distinct constants. -/
theorem witness_RoleIsTheConstantThatMatches :
    referenceConfig.offsDistinct = true ∧
    syn referenceConfig wordA = offs referenceConfig .A ∧ syn referenceConfig wordB = offs referenceConfig .B ∧
    syn referenceConfig wordC = offs referenceConfig .C ∧ syn referenceConfig wordCp = offs referenceConfig .Cp ∧
    syn referenceConfig wordD = offs referenceConfig .D ∧ roleOf referenceConfig 0 = none := by decide

theorem witness_TickRunsTheSyndromeRow :
    decode referenceConfig ⟨.syndrome, (syn referenceConfig (wNext (before .seekingA 25 wordA) 0)).toNat⟩ = .ok .roleA ∧
    decode referenceConfig ⟨.syndrome, (syn referenceConfig (wNext State.reset 0)).toNat⟩ = .error .roleNone :=
  ⟨rfl, rfl⟩

/-- Below 26, at 26 and past it, with role A and without. -/
theorem witness_TickInSeekingA :
    (before .seekingA 24 wordA).state = .seekingA ∧
    posNext (before .seekingA 24 wordA) = 25 ∧
    posNext (before .seekingA 25 wordA) = 26 ∧ roleNext (before .seekingA 25 wordA) 0 = some .A ∧
    posNext (before .seekingA 26 wordA) = 27 ∧ roleNext (before .seekingA 26 wordA) 0 = some .A ∧
    roleNext (before .seekingA 25 wordB) 0 = some .B := by decide

/-- At 26 with role B, at 26 with another role and with none, at 25, and at 27. -/
theorem witness_TickInExpectingB :
    (before .expectingB 25 wordB).state = .expectingB ∧
    posNext (before .expectingB 25 wordB) = 26 ∧ roleNext (before .expectingB 25 wordB) 0 = some .B ∧
    roleNext (before .expectingB 25 wordD) 0 = some .D ∧ roleNext (before .expectingB 25 0x0100AEA) 0 = none ∧
    posNext (before .expectingB 24 wordB) = 25 ∧ posNext (before .expectingB 26 wordB) = 27 := by decide

/-- At 26 with C, with Cp and with another role, and at 25 and 27. -/
theorem witness_TickInExpectingC :
    (before .expectingC 25 wordC).state = .expectingC ∧
    posNext (before .expectingC 25 wordC) = 26 ∧ roleNext (before .expectingC 25 wordC) 0 = some .C ∧
    roleNext (before .expectingC 25 wordCp) 0 = some .Cp ∧ roleNext (before .expectingC 25 wordB) 0 = some .B ∧
    posNext (before .expectingC 24 wordC) = 25 ∧ posNext (before .expectingC 26 wordC) = 27 := by decide

/-- At 26 with role D, at 26 with another role, at 25, and at 27. -/
theorem witness_TickInExpectingD :
    (before .expectingD 25 wordD).state = .expectingD ∧
    posNext (before .expectingD 25 wordD) = 26 ∧ roleNext (before .expectingD 25 wordD) 0 = some .D ∧
    roleNext (before .expectingD 25 wordA) 0 = some .A ∧
    posNext (before .expectingD 24 wordD) = 25 ∧ posNext (before .expectingD 26 wordD) = 27 := by decide

/-- A match and a mismatch that change STATE, and `reset`. -/
theorem witness_StateChangesOnlyAtAcceptedCheckPoints :
    (nextOf (step ((before .expectingC 25 wordC).present [bitCommand 0]))).map (·.state) = some .expectingD ∧
    (nextOf (step ((before .expectingC 25 wordB).present [bitCommand 0]))).map (·.state) = some .expectingB ∧
    (nextOf (step ((before .expectingC 25 wordB).present [resetCommand]))).map (·.state) = some .seekingA := by decide

/-- A capture in each state, at the first check point and at a later one where there are later ones, and Cp beside C. -/
theorem witness_OneSlotIsCapturedPerMatch :
    CapturesSlot (before .seekingA 25 wordA) 0 0 ∧ CapturesSlot (before .seekingA 26 wordA) 0 0 ∧
    CapturesSlot (before .expectingB 25 wordB) 0 1 ∧ CapturesSlot (before .expectingC 25 wordC) 0 2 ∧
    CapturesSlot (before .expectingC 25 wordCp) 0 2 ∧ CapturesSlot (before .expectingD 25 wordD) 0 3 := by
  refine ⟨?_, ?_, ?_, ?_, ?_, ?_⟩ <;> (unfold CapturesSlot; decide)

/-- Ticks that capture nothing: one early, one late and one mismatch at the check point; and an operation that is no tick. -/
theorem witness_OneSlotIsCapturedPerMatch_otherwise :
    (∀ k, ¬ CapturesSlot (before .seekingA 24 wordA) 0 k) ∧ (∀ k, ¬ CapturesSlot (before .expectingC 26 wordC) 0 k) ∧
    (∀ k, ¬ CapturesSlot (before .expectingB 25 wordD) 0 k) ∧
    Instr.reset 0 0 ≠ .submitBit0 ∧ Instr.reset 0 0 ≠ .submitBit1 := by
  refine ⟨?_, ?_, ?_, by decide, by decide⟩ <;> (unfold CapturesSlot; decide)

/-- Both stalling states, and the longest list of bits that the statement takes. -/
theorem witness_StallLastsUntilTheCounterWraps :
    stalled.cfg.wellFormed = true ∧ stalled.state = .expectingB ∧ stalled.pos = 26 ∧
    (at_ .expectingD 26 0).state = .expectingD ∧ (at_ .expectingD 26 0).pos = 26 ∧
    (at_ .expectingD 26 0).cfg.wellFormed = true ∧
    (List.replicate 31 0#1).length < 2 ^ stalled.cfg.posw ∧ ([] : List (BitVec 1)).length < 2 ^ stalled.cfg.posw := by
  decide

/-- Six bits and then a B word, or a D word: 32 ticks of a 5-bit counter. -/
theorem witness_StallEndsOnAMatchAfterTheWrap :
    stalled.cfg.wellFormed = true ∧ stalled.state = .expectingB ∧ stalled.pos = 26 ∧
    (List.replicate 6 0#1 ++ (bitsOf wordB).take 25).length + 1 = 2 ^ stalled.cfg.posw ∧
    roleOf stalled.cfg (windowAfter stalled.w ((List.replicate 6 0#1 ++ (bitsOf wordB).take 25) ++ [0])) = some .B ∧
    stalledD.cfg.wellFormed = true ∧ stalledD.state = .expectingD ∧ stalledD.pos = 26 ∧
    (List.replicate 6 0#1 ++ (bitsOf wordD).take 25).length + 1 = 2 ^ stalledD.cfg.posw ∧
    roleOf stalledD.cfg (windowAfter stalledD.w ((List.replicate 6 0#1 ++ (bitsOf wordD).take 25) ++ [0])) = some .D := by
  decide

/-- Two zero bits from a counter at 24: the first completes a window of role A one tick before the check point, where the
hypothesis asks nothing, and the second is the check point. -/
theorem witness_StreamWithoutRoleANeverLocks :
    (before .seekingA 24 wordA).cfg.wellFormed = true ∧ (before .seekingA 24 wordA).state = .seekingA ∧
    (before .seekingA 24 wordA).pos ≤ 26 ∧
    roleOf referenceConfig (windowAfter (before .seekingA 24 wordA).w ([0#1, 0#1].take 1)) = some .A ∧
    ∀ n, n ≤ [0#1, 0#1].length → 0 < n → 26 ≤ (before .seekingA 24 wordA).pos + n →
      roleOf referenceConfig (windowAfter (before .seekingA 24 wordA).w ([0#1, 0#1].take n)) ≠ some .A := by
  refine ⟨by decide, rfl, by decide, by decide, fun n hn _ h26 => ?_⟩
  have h2 : n = 2 := by
    change n ≤ 2 at hn; change 26 ≤ 24 + n at h26; omega
  subst h2; decide

/-- Both C words. -/
theorem witness_ErrorFreeGroupIsDecoded :
    State.reset.cfg.wellFormed = true ∧ State.reset.state = .seekingA ∧ State.reset.pos = 0 ∧
    roleOf referenceConfig wordA = some .A ∧ roleOf referenceConfig wordB = some .B ∧
    roleOf referenceConfig wordC = some .C ∧ roleOf referenceConfig wordCp = some .Cp ∧
    roleOf referenceConfig wordD = some .D := by decide

/-- A type for each clause. -/
theorem witness_GroupTypeSelectsTheExtractor :
    (0x0FFF#16).extractLsb' 12 4 = 0#4 ∧ (0xF002#16).extractLsb' 12 4 = 15#4 ∧ (0x2815#16).extractLsb' 12 4 = 2#4 ∧
    (0x1FFF#16).extractLsb' 12 4 ≠ 0#4 ∧ (0x1FFF#16).extractLsb' 12 4 ≠ 15#4 ∧ (0x1FFF#16).extractLsb' 12 4 ≠ 2#4 := by
  decide

/-- The last segment, already holding the two characters. -/
theorem witness_ProgramNameGroupWritesOneSegment :
    ({ State.reset with ps := [(6, 0x41), (7, 0x42)] } : State).ps.wf 8 ∧
    readByte { State.reset with ps := [(6, 0x41), (7, 0x42)] } .ps (2 * (3#2).toNat) = (0x4142#16).extractLsb' 8 8 ∧
    readByte { State.reset with ps := [(6, 0x41), (7, 0x42)] } .ps (2 * (3#2).toNat + 1) =
      (0x4142#16).extractLsb' 0 8 := by decide

/-- Both variants, each with the space it selects, and offsets on either side of the last segment. -/
theorem witness_MessageTextGroupWritesOneSegment :
    Space.rt0 = (if 0#1 = 0#1 then Space.rt0 else .rt1) ∧ Space.rt1 = (if 1#1 = 0#1 then Space.rt0 else .rt1) ∧
    59 < 4 * (15#4).toNat ∧ 4 * (0#4).toNat + 3 < 4 := by decide

/-- A state one bit before a group of type 1 is complete. -/
def ignoredNext : State := { before .expectingD 25 wordD with slot := #v[0x1234, 0x1002, 0xCAFE, 0] }

theorem witness_IgnoredGroupsChangeNothing :
    ignoredNext.state = .expectingD ∧ posNext ignoredNext = 26 ∧ roleNext ignoredNext 0 = some .D ∧
    ignoredNext.slot[1].extractLsb' 12 4 ≠ 0#4 ∧ ignoredNext.slot[1].extractLsb' 12 4 ≠ 2#4 ∧
    ignoredNext.slot[1].extractLsb' 12 4 ≠ 15#4 := by decide

/-- The same group with bit 11 of word B clear and set. -/
theorem witness_TwoCharacterVariantNeverActivates :
    (0x2015#16).extractLsb' 12 4 = 2#4 ∧ (0x2815#16).extractLsb' 12 4 = 2#4 ∧
    (0x2015#16).extractLsb' 0 5 = (0x2815#16).extractLsb' 0 5 ∧
    decode referenceConfig ⟨.group, (0x1234#16 ++ 0x2015#16 ++ 0x4869#16 ++ 0x2021#16 : BitVec 64).toNat⟩ =
      .ok (.groupT2MessageText 0x1234 0x00 1 5 0x4869 0x2021) ∧
    decode referenceConfig ⟨.group, (0x1234#16 ++ 0x2815#16 ++ 0x4869#16 ++ 0x2021#16 : BitVec 64).toNat⟩ =
      .ok (.groupT2MessageText 0x1234 0x40 1 5 0x4869 0x2021) := ⟨rfl, rfl, rfl, rfl, rfl⟩

/-- A state one bit before a group of type 2 is complete. -/
def messageNext : State :=
  { before .expectingD 25 wordD with slot := #v[0x1234, 0x2015, 0xCAFE, 0], inputs := [bitCommand 0] }

theorem witness_OutputsChangeOnlyByResetOrACompletedGroup :
    ∃ t, step messageNext = .next t ∧ t.pi ≠ messageNext.pi ∧ t.sel ≠ messageNext.sel ∧ t.rt1 ≠ messageNext.rt1 :=
  ⟨_, rfl, by decide, by decide, by decide⟩

theorem witness_ResetIsIdempotent :
    ∃ t, exec (.reset 1 0) ignoredNext = .next t ∧ t.pos = 0 := ⟨_, rfl, rfl⟩

/-- A request with both other lines high, one bit before a lock. -/
theorem witness_ResetRequestDropsTheBit :
    ((before .seekingA 25 wordA).present [.cmd 0b111]).cfg.wellFormed = true ∧
    ((before .seekingA 25 wordA).present [.cmd 0b111]).inputs = .cmd 0b111 :: [] ∧
    (0b111#3).getLsbD 2 = true := by decide

theorem witness_ReadsReturnAndWriteNothing : State.reset.sel = 0#1 ∧ readable.sel = 1#1 := by decide

/-- The boundary bytes of both ports. -/
theorem witness_PortsCarryTheBytesInOrder :
    (psOut readable).extractLsb' (8 * (7 - 4)) 8 = 0x41#8 ∧ (0 < 8 ∧ 7 < 8) ∧ (0 < 64 ∧ 63 < 64) := by decide

theorem witness_MessageIsBlankAfterReset : ∃ t, exec (.reset 0 0) readable = .next t ∧ t.sel = 1#1 := ⟨_, rfl, rfl⟩

theorem witness_ReadyIsZeroBeforeResetAndOneAfter :
    ∃ t, exec (.reset 0 0) (State.powerOn referenceConfig 0 0 #v[0, 0, 0, 0] 0 [] [] [] 0) = .next t :=
  ⟨_, rfl⟩

theorem witness_ReadyChangesOnlyByReset :
    nextIsReset (State.reset.present [.cmd 0b111]) ∧ ¬ nextIsReset (State.reset.present [.cmd 0b011]) ∧
    (∃ t, step (State.reset.present [.cmd 0b111]) = .next t) ∧
    (∃ t, step (State.reset.present [.cmd 0b011]) = .next t) :=
  ⟨⟨_, _, rfl, rfl⟩, by rintro ⟨c, rest, h, hc⟩; cases h; revert hc; decide, ⟨_, rfl⟩, ⟨_, rfl⟩⟩

/-- Two draws of the registers that `reset` leaves alone, before the same bit. -/
theorem witness_RegistersLeftByResetCannotBeSeen :
    (State.reset.present [bitCommand 1]).cfg.wellFormed = true ∧
    AgreeAfterReset (State.reset.present [bitCommand 1])
      { State.reset.present [bitCommand 1] with w := 0x3FFFFFF, slot := #v[1, 2, 3, 4], pi := 5, sel := 1 } ∧
    ∃ s' t', Host.Core.run Sys2Proof.core 1 (State.reset.present [bitCommand 1]) = .next s' ∧
      Host.Core.run Sys2Proof.core 1
        { State.reset.present [bitCommand 1] with w := 0x3FFFFFF, slot := #v[1, 2, 3, 4], pi := 5, sel := 1 } =
          .next t' :=
  ⟨by decide, ⟨⟨rfl, rfl, rfl, rfl, rfl⟩, rfl⟩, _, _, rfl, rfl⟩

/-- A command word, the last port, a syndrome that the table has a word of, and a group whose last block is a D block. -/
theorem witness_FetchWordRunsTheRow :
    State.reset.cfg.wellFormed = true ∧ decode referenceConfig ⟨.cmd, (0b010#3).toNat⟩ = .ok .submitBit0 ∧
    decode referenceConfig ⟨.port, 2⟩ = .ok .isReady ∧
    decode referenceConfig ⟨.syndrome, (0x3CC#10).toNat⟩ = .ok .roleCp ∧
    syn referenceConfig (windowWith referenceConfig 0x3CC 0#16) = 0x3CC ∧
    decode referenceConfig ⟨.group, (0xAAAAF00243444546#64).toNat⟩ =
      .ok (.groupT15ProgramName 0xAAAA 0 2 0x4344 0x4546) ∧
    roleOf referenceConfig (blockWord referenceConfig .D ((0xAAAAF00243444546#64).extractLsb' 0 16)) = some .D :=
  ⟨rfl, rfl, rfl, rfl, by decide, rfl, by decide⟩

end Sys2Proof.Tests
end

section
/-! SUPPORT. What a tick may not write, what one step can do, and from these the two statements about the parameters
(10_state.md R30) and about READY (R29, decision D12). -/

namespace Sys2Proof.Machine

/-! ### What a tick leaves alone -/

/-- `t` has the fields of `s` that no tick writes: the parameters, READY, the last answer to a reader and the operations
still to come (42_block_synchronizer.md R120). -/
structure SameOutsideTick (s t : State) : Prop where
  cfg : t.cfg = s.cfg
  ready : t.ready = s.ready
  reply : t.reply = s.reply
  inputs : t.inputs = s.inputs

theorem SameOutsideTick.refl (s : State) : SameOutsideTick s s :=
  ⟨rfl, rfl, rfl, rfl⟩

theorem SameOutsideTick.trans {s t u : State} (h : SameOutsideTick s t) (h' : SameOutsideTick t u) :
    SameOutsideTick s u :=
  ⟨h'.cfg.trans h.cfg, h'.ready.trans h.ready, h'.reply.trans h.reply, h'.inputs.trans h.inputs⟩

theorem receive_frame (b : BitVec 1) (s : State) : SameOutsideTick s (receive b s) :=
  ⟨rfl, rfl, rfl, rfl⟩

theorem holdPos_frame (s : State) : SameOutsideTick s (holdPos s) :=
  ⟨rfl, rfl, rfl, rfl⟩

theorem enter_frame (q : SyncState) (s : State) : SameOutsideTick s (enter q s) :=
  ⟨rfl, rfl, rfl, rfl⟩

theorem enter_capture_frame (q : SyncState) (k : Fin 4) (s : State) : SameOutsideTick s (enter q (capture k s)) :=
  ⟨rfl, rfl, rfl, rfl⟩

theorem extractPs_frame (a : DataWord) (i : BitVec 2) (d : DataWord) (s : State) :
    SameOutsideTick s (extractPs a i d s) :=
  ⟨rfl, rfl, rfl, rfl⟩

theorem extractRt_frame (a : DataWord) (v : BitVec 1) (i : BitVec 4) (c d : DataWord) (s : State) :
    SameOutsideTick s (extractRt a v i c d s) := by
  constructor <;> simp [extractRt]

theorem decodeGroup_frame (a b c d : DataWord) (s : State) : SameOutsideTick s (decodeGroup a b c d s) := by
  rcases decodeGroup_cases a b c d s with ⟨-, he⟩ | ⟨-, he⟩ | ⟨-, -, -, he⟩ <;> rw [he]
  · exact extractPs_frame _ _ _ _
  · exact extractRt_frame _ _ _ _ _ _
  · exact .refl s

theorem seekA_frame (s : State) : SameOutsideTick s (seekA s) := by
  unfold seekA
  split_ifs
  · exact (holdPos_frame s).trans (enter_capture_frame _ _ _)
  · exact holdPos_frame s
  · exact .refl s

theorem expectB_frame (s : State) : SameOutsideTick s (expectB s) := by
  unfold expectB
  split_ifs
  · exact enter_capture_frame _ _ s
  · exact .refl s
  · exact .refl s

theorem expectC_frame (s : State) : SameOutsideTick s (expectC s) := by
  unfold expectC
  split_ifs
  · exact enter_capture_frame _ _ s
  · exact enter_frame _ s
  · exact .refl s

theorem expectD_frame (s : State) : SameOutsideTick s (expectD s) := by
  unfold expectD
  split_ifs
  · exact (enter_capture_frame _ _ s).trans (decodeGroup_frame _ _ _ _ _)
  · exact .refl s
  · exact .refl s

theorem synchronize_frame (q : SyncState) (s : State) : SameOutsideTick s (synchronize q s) := by
  cases q with
  | seekingA => exact seekA_frame s
  | expectingB => exact expectB_frame s
  | expectingC => exact expectC_frame s
  | expectingD => exact expectD_frame s

/-- The whole tick: the frame of 42_block_synchronizer.md R120. -/
theorem submitBit_frame (b : BitVec 1) (s : State) : SameOutsideTick s (submitBit b s) :=
  (receive_frame b s).trans (synchronize_frame _ _)

@[simp] theorem submitBit_cfg (b : BitVec 1) (s : State) : (submitBit b s).cfg = s.cfg :=
  (submitBit_frame b s).cfg

@[simp] theorem submitBit_ready (b : BitVec 1) (s : State) : (submitBit b s).ready = s.ready :=
  (submitBit_frame b s).ready

/-! ### What one step can do -/

/-- The three kinds of command word, by `reset_req` and `bit_valid` (30_encoding.md R80). -/
theorem decodeCmd_cases (c : BitVec 3) :
    (c.getLsbD 2 = true ∧ ∃ v b, decodeCmd c = .reset v b) ∨
    (∃ b, c = 0b01#2 ++ b ∧ decodeCmd c = bitInstr b) ∨
    (∃ b, c = 0b00#2 ++ b ∧ decodeCmd c = .idle b) := by
  revert c; decide

theorem exec_bitInstr (b : BitVec 1) (s : State) : exec (bitInstr b) s = .next (submitBit b s) := by
  obtain rfl | rfl : b = 0#1 ∨ b = 1#1 := by revert b; decide
  · rfl
  · rfl

/-- What the read of a port returns (45_output_store_ops.md R170, R171, R173). -/
def portReply (s : State) : Port → Reply
  | .psOut => .programName (memRead s .ps 0 8)
  | .rtOut => .messageText (memRead s (rtSpace s.sel) 0 64)
  | .readyOut => .isReady s.ready

theorem exec_decodePort (p : Port) (s : State) : exec (decodePort p) s = .next (answer (portReply s p) s) := by
  cases p <;> rfl

/-- What one step can do, by the operation presented next (30_encoding.md R80): the list of operations is used up, or a
bit is submitted, the block is reset, the lines are idle, or a port is read. -/
inductive StepEffect (s : State) : State → Prop where
  | silent : s.inputs = [] → StepEffect s s
  | bit (b : BitVec 1) (rest : List Presented) :
    s.inputs = bitCommand b :: rest → StepEffect s (submitBit b (s.present rest))
  | reset (c : BitVec 3) (rest : List Presented) : s.inputs = .cmd c :: rest → c.getLsbD 2 = true →
    StepEffect s (arm (enter .seekingA (clearBuffers (s.present rest))))
  | idle (b : BitVec 1) (rest : List Presented) :
    s.inputs = .cmd (0b00#2 ++ b) :: rest → StepEffect s (s.present rest)
  | read (p : Port) (rest : List Presented) :
    s.inputs = .read p :: rest → StepEffect s (answer (portReply (s.present rest) p) (s.present rest))

theorem step_eq_next_iff (s t : State) :
    step s = .next t ↔ s.cfg.wellFormed = true ∧ exec (fetch s).1 (fetch s).2 = .next t := by
  unfold step
  split <;> simp_all

/-- The inversion lemma of `step`. -/
theorem stepEffect_of_step {s t : State} (h : step s = .next t) : StepEffect s t := by
  obtain ⟨-, hexec⟩ := (step_eq_next_iff s t).1 h
  unfold fetch at hexec
  split at hexec
  next hin =>
    cases hexec
    exact .silent hin
  next x rest hin =>
    cases x with
    | read p =>
      cases (exec_decodePort p _).symm.trans hexec
      exact .read p rest hin
    | cmd c =>
      rcases decodeCmd_cases c with ⟨hc, v, b, hdec⟩ | ⟨b, rfl, hdec⟩ | ⟨b, rfl, hdec⟩ <;>
        simp only [decodePresented, hdec] at hexec
      · cases hexec
        exact .reset c rest hin hc
      · cases (exec_bitInstr b _).symm.trans hexec
        exact .bit b rest hin
      · cases hexec
        exact .idle b rest hin

/-- `reset_req` of a command word is the upper of the two bits before `bit_in` (30_encoding.md R80). -/
theorem resetReq_append (x : BitVec 2) (b : BitVec 1) : (x ++ b : BitVec 3).getLsbD 2 = x.getLsbD 1 := by
  revert x b; decide

theorem nextIsReset_cmd {s : State} {c : BitVec 3} {rest : List Presented} (hin : s.inputs = .cmd c :: rest) :
    nextIsReset s ↔ c.getLsbD 2 = true := by
  simp [nextIsReset, hin]

/-! ### The parameters (10_state.md R30) -/

/-- Every row of the opcode table answers a next state with the same parameters. -/
theorem exec_keeps_cfg (i : Instr) (s : State) : ∃ t, exec i s = .next t ∧ t.cfg = s.cfg := by
  cases i with
  | submitBit0 => exact ⟨_, rfl, submitBit_cfg 0#1 s⟩
  | submitBit1 => exact ⟨_, rfl, submitBit_cfg 1#1 s⟩
  | groupT2MessageText a x v i c d => exact ⟨_, rfl, (extractRt_frame a v i c d s).cfg⟩
  | _ => exact ⟨_, rfl, rfl⟩

theorem StepEffect.cfg {s t : State} (h : StepEffect s t) : t.cfg = s.cfg := by
  cases h with
  | silent => rfl
  | bit b rest => exact submitBit_cfg b (s.present rest)
  | reset | idle | read => rfl

/-- Settles O7: the rows one by one, and a step by what it can do. -/
theorem parametersAreNeverWritten : Obligations.ParametersAreNeverWritten :=
  ⟨exec_keeps_cfg, fun _ _ h => (stepEffect_of_step h).cfg⟩

/-! ### READY (10_state.md R29) -/

/-- Of what a step can do, only the reset writes READY, and each other case is none of a reset. -/
theorem StepEffect.ready {s t : State} (h : StepEffect s t) :
    nextIsReset s ∧ t.ready = 1#1 ∨ ¬ nextIsReset s ∧ t.ready = s.ready := by
  cases h with
  | silent hin => exact .inr ⟨by simp [nextIsReset, hin], rfl⟩
  | bit b rest hin =>
    exact .inr ⟨by rw [nextIsReset_cmd hin, resetReq_append]; decide, submitBit_ready b (s.present rest)⟩
  | reset c rest hin hc => exact .inl ⟨(nextIsReset_cmd hin).2 hc, rfl⟩
  | idle b rest hin => exact .inr ⟨by rw [nextIsReset_cmd hin, resetReq_append]; decide, rfl⟩
  | read p rest hin => exact .inr ⟨by simp [nextIsReset, hin], rfl⟩

/-- Settles O45, from what a step can do to READY. -/
theorem readyChangesOnlyByReset : Obligations.ReadyChangesOnlyByReset := by
  intro s t h
  obtain ⟨hreset, hready⟩ | ⟨hreset, hready⟩ := (stepEffect_of_step h).ready
  · exact ⟨fun _ => hready, fun hno => absurd hreset hno⟩
  · exact ⟨fun hyes => absurd hyes hreset, fun _ => hready⟩

end Sys2Proof.Machine
end

section
/-! SUPPORT. The data word of a window (30_encoding.md R73), and the dispatch of a group view by its type alone (R77):
the row the decoder reads from the four words runs the Group Decoder of the tick. -/

namespace Sys2Proof.Machine

/-! ### The data word (30_encoding.md R73) -/

theorem dataOf_eq_shift (w : Window) : dataOf w = (w >>> 10).setWidth 16 := by
  ext k hk
  simp [dataOf]

theorem getLsbD_dataOf (w : Window) {k : Nat} (hk : k < 16) : (dataOf w).getLsbD k = w.getLsbD (k + 10) := by
  simp [dataOf, hk, Nat.add_comm]

/-- Settles O14, bit by bit. -/
theorem dataWordIsTheOlderSixteenBits : Obligations.DataWordIsTheOlderSixteenBits :=
  fun w => ⟨dataOf_eq_shift w, fun _ hk => getLsbD_dataOf w hk⟩

/-! ### The group type (30_encoding.md R77) -/

/-- Every group view is the word of a row (30_encoding.md R77). -/
theorem decode_group (cfg : Config) (g : GroupView) : decode cfg ⟨.group, g.toNat⟩ = .ok (decodeGroupView g) := by
  have hfits : ¬ 2 ^ Format.group.width ≤ g.toNat := Nat.not_le.2 g.isLt
  simp [decode, hfits]

theorem view_groupType (a b c d : DataWord) : field (a ++ b ++ c ++ d) 44 4 = groupType b :=
  view_field_b a b c d 12 4 (by decide)

theorem view_psIndex (a b c d : DataWord) : field (a ++ b ++ c ++ d) 32 2 = psIndex b :=
  view_field_b a b c d 0 2 (by decide)

theorem view_variantOf (a b c d : DataWord) : field (a ++ b ++ c ++ d) 36 1 = variantOf b :=
  view_field_b a b c d 4 1 (by decide)

theorem view_rtIndex (a b c d : DataWord) : field (a ++ b ++ c ++ d) 32 4 = rtIndex b :=
  view_field_b a b c d 0 4 (by decide)

theorem decodeGroup_programName {a b c d : DataWord} {s : State} (h : groupType b = 0#4 ∨ groupType b = 15#4) :
    decodeGroup a b c d s = extractPs a (psIndex b) d s := by
  simp [decodeGroup, h]

theorem decodeGroup_messageText {a b c d : DataWord} {s : State} (h : groupType b = 2#4) :
    decodeGroup a b c d s = extractRt a (variantOf b) (rtIndex b) c d s := by
  simp [decodeGroup, h]

theorem decodeGroup_ignored {a b c d : DataWord} {s : State}
    (h : groupType b ≠ 0#4 ∧ groupType b ≠ 15#4 ∧ groupType b ≠ 2#4) : decodeGroup a b c d s = s := by
  simp [decodeGroup, discardGroup, h]

/-- The row of a group view and the dispatch of the tick are the same operation (30_encoding.md R77,
44_group_decoder.md R150). -/
theorem exec_decodeGroupView (a b c d : DataWord) (s : State) :
    exec (decodeGroupView (a ++ b ++ c ++ d)) s = .next (decodeGroup a b c d s) := by
  unfold decodeGroupView
  rw [view_groupType]
  split
  case h_1 ht =>
    rw [decodeGroup_programName (.inl (BitVec.eq_of_toNat_eq ht)), view_word_a, view_psIndex, view_word_d]
    rfl
  case h_3 ht =>
    rw [decodeGroup_messageText (BitVec.eq_of_toNat_eq ht), view_word_a, view_variantOf, view_rtIndex, view_word_c,
      view_word_d]
    rfl
  case h_16 =>
    have hlt : (groupType b).toNat < 16 := (groupType b).isLt
    have ht : (groupType b).toNat = 15 := by grind
    rw [decodeGroup_programName (.inr (BitVec.eq_of_toNat_eq ht)), view_word_a, view_psIndex, view_word_d]
    rfl
  all_goals
    next ht => exact congrArg _ (decodeGroup_ignored (by simp [← BitVec.toNat_inj, ht])).symm

/-- Settles O31: the Group Decoder's three cases, for the row the four words decode to. -/
theorem groupTypeSelectsTheExtractor : Obligations.GroupTypeSelectsTheExtractor := by
  intro cfg a b c d s
  refine ⟨decodeGroupView (a ++ b ++ c ++ d), decode_group cfg _, ?_⟩
  rw [exec_decodeGroupView]
  exact ⟨fun h => congrArg _ (decodeGroup_programName h), fun h => congrArg _ (decodeGroup_messageText h),
    fun h0 h15 h2 => congrArg _ (decodeGroup_ignored ⟨h0, h15, h2⟩)⟩

end Sys2Proof.Machine
end

section
/-! SUPPORT. The syndrome is linear (40_syndrome_decoder.md R103), so the check bits of a block can be solved for any
syndrome (30_encoding.md R82): the basis of `checkBasis` holds true pairs, it is in echelon form, and where it has a
leading bit at each of the ten places every syndrome reduces to zero. -/

namespace Sys2Proof.Machine

/-! ### The syndrome of a sum and of one bit (40_syndrome_decoder.md R100, R103) -/

/-- One turn of the loop adds the table entry of one bit. -/
theorem synBelow_succ (cfg : Config) (w : Window) (n : Nat) :
    synBelow cfg w (n + 1) = synBelow cfg w n ^^^ (if w.getLsbD n then pcmEntry cfg n else 0#10) := by
  cases h : w.getLsbD n <;> simp [synBelow, h]

theorem synBelow_zero (cfg : Config) (n : Nat) : synBelow cfg 0#26 n = 0#10 := by
  induction n with
  | zero => rfl
  | succ n ih => simp [synBelow_succ, ih]

/-- A term that enters a sum where a bit is set enters it for `x ^^ y` as often as for `x` and `y`, modulo 2. -/
theorem ite_xor (x y : Bool) (t : Syndrome) :
    (if x ^^ y then t else 0#10) = (if x then t else 0#10) ^^^ (if y then t else 0#10) := by
  cases x <;> cases y <;> simp

theorem synBelow_xor (cfg : Config) (a b : Window) (n : Nat) :
    synBelow cfg (a ^^^ b) n = synBelow cfg a n ^^^ synBelow cfg b n := by
  induction n with
  | zero => simp [synBelow]
  | succ n ih =>
    rw [synBelow_succ, synBelow_succ, synBelow_succ, ih, BitVec.getLsbD_xor, ite_xor]
    ac_rfl

theorem getLsbD_oneBit (i : Nat) {n : Nat} (hn : n < 26) : (1#26 <<< i).getLsbD n = decide (n = i) := by
  simp only [BitVec.getLsbD_shiftLeft, BitVec.getLsbD_one]
  grind

theorem synBelow_oneBit (cfg : Config) (i : Nat) {n : Nat} (hn : n ≤ 26) :
    synBelow cfg (1#26 <<< i) n = if i < n then pcmEntry cfg i else 0#10 := by
  induction n with
  | zero => rfl
  | succ n ih =>
    rw [synBelow_succ, getLsbD_oneBit i (by omega), ih (by omega)]
    rcases lt_trichotomy n i with h | rfl | h
    · simp [h.ne, h.not_gt, h]
    · simp
    · simp [h.ne', h, Nat.lt_succ_of_lt h]

@[simp] theorem syn_zero (cfg : Config) : syn cfg 0#26 = 0#10 :=
  synBelow_zero cfg 26

theorem syn_xor (cfg : Config) (a b : Window) : syn cfg (a ^^^ b) = syn cfg a ^^^ syn cfg b :=
  synBelow_xor cfg a b 26

theorem syn_oneBit (cfg : Config) {i : Nat} (hi : i < 26) : syn cfg (1#26 <<< i) = pcmEntry cfg i := by
  simp [syn, synBelow_oneBit cfg i le_rfl, hi]

/-- The word whose only bits are check bits. -/
def checkWord (c : BitVec 10) : Window :=
  0#16 ++ c

theorem checkWord_xor (c c' : BitVec 10) : checkWord (c ^^^ c') = checkWord c ^^^ checkWord c' := by
  rw [checkWord, checkWord, checkWord, BitVec.xor_append, BitVec.xor_self]

theorem checkWord_zero : checkWord 0#10 = 0#26 := rfl

/-- The syndrome of a word is that of its data bits and that of its check bits (30_encoding.md R82). -/
theorem syn_append (cfg : Config) (d : DataWord) (c : BitVec 10) :
    syn cfg (d ++ c) = syn cfg (d ++ 0#10) ^^^ syn cfg (checkWord c) := by
  rw [← syn_xor, checkWord, BitVec.xor_append]
  simp

/-! ### One reduction -/

/-- The place of a syndrome's leading bit. -/
def lead (t : Syndrome) : Nat :=
  t.toNat.log2

/-- One step of `xorReduce`. -/
def reduceBy (p b : Syndrome × BitVec 10) : Syndrome × BitVec 10 :=
  if p.1 ^^^ b.1 < p.1 then (p.1 ^^^ b.1, p.2 ^^^ b.2) else p

theorem xorReduce_cons (b : Syndrome × BitVec 10) (bs : List (Syndrome × BitVec 10)) (p : Syndrome × BitVec 10) :
    xorReduce (b :: bs) p = xorReduce bs (reduceBy p b) := rfl

theorem getLsbD_lead {t : Syndrome} (h : t ≠ 0#10) : t.getLsbD (lead t) = true :=
  Nat.testBit_log2 (by simpa [← BitVec.toNat_inj] using h)

theorem getLsbD_above_lead {t : Syndrome} {j : Nat} (h : lead t < j) : t.getLsbD j = false :=
  Nat.testBit_lt_two_pow (Nat.lt_log2_self.trans_le (Nat.pow_le_pow_right (by decide) h))

/-- Syndromes are compared at the highest place where they differ. -/
theorem lt_of_getLsbD {t u : Syndrome} (k : Nat) (ht : t.getLsbD k = false) (hu : u.getLsbD k = true)
    (habove : ∀ j, k < j → t.getLsbD j = u.getLsbD j) : t < u :=
  Nat.lt_of_testBit k ht hu habove

/-- Subtracting a syndrome makes a smaller one exactly where its leading bit stands. -/
theorem xor_lt_iff {t b : Syndrome} (hb : b ≠ 0#10) : t ^^^ b < t ↔ t.getLsbD (lead b) = true := by
  have habove : ∀ j, lead b < j → (t ^^^ b).getLsbD j = t.getLsbD j := fun j hj => by
    simp [getLsbD_above_lead hj]
  cases ht : t.getLsbD (lead b) with
  | true => exact iff_of_true (lt_of_getLsbD (lead b) (by simp [ht, getLsbD_lead hb]) ht habove) rfl
  | false =>
    have hgt : t < t ^^^ b :=
      lt_of_getLsbD (lead b) ht (by simp [ht, getLsbD_lead hb]) fun j hj => (habove j hj).symm
    exact iff_of_false (BitVec.not_lt.2 (BitVec.le_of_lt hgt)) (by simp)

theorem reduceBy_clears (p : Syndrome × BitVec 10) {b : Syndrome × BitVec 10} (hb : b.1 ≠ 0#10) :
    (reduceBy p b).1.getLsbD (lead b.1) = false := by
  unfold reduceBy
  split
  next h => simp [(xor_lt_iff hb).1 h, getLsbD_lead hb]
  next h => simpa using mt (xor_lt_iff hb).2 h

theorem reduceBy_keeps_clear {p b : Syndrome × BitVec 10} {k : Nat} (hb : b.1.getLsbD k = false)
    (hp : p.1.getLsbD k = false) : (reduceBy p b).1.getLsbD k = false := by
  unfold reduceBy
  split <;> simp [hb, hp]

theorem xorReduce_keeps_clear {bs : List (Syndrome × BitVec 10)} {p : Syndrome × BitVec 10} {k : Nat}
    (hbs : ∀ b ∈ bs, b.1.getLsbD k = false) (hp : p.1.getLsbD k = false) :
    (xorReduce bs p).1.getLsbD k = false := by
  induction bs generalizing p with
  | nil => exact hp
  | cons b bs ih =>
    rw [List.forall_mem_cons] at hbs
    exact ih hbs.2 (reduceBy_keeps_clear hbs.1 hp)

/-! ### The basis is in echelon form -/

/-- No entry is zero, and no entry has a bit where an earlier entry has its leading bit. -/
structure Echelon (bs : List (Syndrome × BitVec 10)) : Prop where
  ne_zero : ∀ b ∈ bs, b.1 ≠ 0#10
  clear : bs.Pairwise fun b b' => b'.1.getLsbD (lead b.1) = false

/-- Reduction by an echelon basis leaves none of the leading bits. -/
theorem xorReduce_clears {bs : List (Syndrome × BitVec 10)} (h : Echelon bs) (p : Syndrome × BitVec 10) :
    ∀ b ∈ bs, (xorReduce bs p).1.getLsbD (lead b.1) = false := by
  obtain ⟨hne, hclear⟩ := h
  induction bs generalizing p with
  | nil => simp
  | cons b bs ih =>
    rw [List.forall_mem_cons] at hne ⊢
    rw [List.pairwise_cons] at hclear
    simp only [xorReduce_cons]
    exact ⟨xorReduce_keeps_clear hclear.1 (reduceBy_clears p hne.1), ih _ hne.2 hclear.2⟩

theorem checkBasis_echelon (cfg : Config) (n : Nat) : Echelon (checkBasis cfg n) := by
  induction n with
  | zero => exact ⟨by simp [checkBasis], .nil⟩
  | succ n ih =>
    rw [checkBasis]
    split
    next => exact ih
    next hne =>
      exact ⟨List.forall_mem_append.2 ⟨ih.ne_zero, by simpa using hne⟩,
        List.pairwise_append.2 ⟨ih.clear, List.pairwise_singleton _ _, by simpa using xorReduce_clears ih _⟩⟩

/-! ### The basis holds true pairs -/

/-- What is missing for the second entry of a pair to be check bits of the first. -/
def residue (cfg : Config) (p : Syndrome × BitVec 10) : Syndrome :=
  p.1 ^^^ syn cfg (checkWord p.2)

theorem residue_xor (cfg : Config) (p b : Syndrome × BitVec 10) :
    residue cfg (p.1 ^^^ b.1, p.2 ^^^ b.2) = residue cfg p ^^^ residue cfg b := by
  simp only [residue, checkWord_xor, syn_xor]
  ac_rfl

theorem residue_xorReduce {cfg : Config} {bs : List (Syndrome × BitVec 10)} (hbs : ∀ b ∈ bs, residue cfg b = 0#10)
    (p : Syndrome × BitVec 10) : residue cfg (xorReduce bs p) = residue cfg p := by
  induction bs generalizing p with
  | nil => rfl
  | cons b bs ih =>
    rw [List.forall_mem_cons] at hbs
    rw [xorReduce_cons, ih hbs.2, reduceBy]
    split
    · rw [residue_xor, hbs.1, BitVec.xor_zero]
    · rfl

theorem residue_oneBit (cfg : Config) {n : Nat} (hn : n < 10) : residue cfg (pcmEntry cfg n, 1#10 <<< n) = 0#10 := by
  have hbit : checkWord (1#10 <<< n) = 1#26 <<< n := by
    revert n; decide
  simp [residue, hbit, syn_oneBit cfg (show n < 26 by omega)]

theorem residue_checkBasis (cfg : Config) {n : Nat} (hn : n ≤ 10) :
    ∀ b ∈ checkBasis cfg n, residue cfg b = 0#10 := by
  induction n with
  | zero => simp [checkBasis]
  | succ n ih =>
    have ihn := ih (by omega)
    rw [checkBasis]
    split
    next => exact ihn
    next => exact List.forall_mem_append.2 ⟨ihn, by simp [residue_xorReduce ihn, residue_oneBit cfg hn]⟩

/-! ### The check bits (30_encoding.md R82) -/

/-- The first ten entries of the parity table span the syndromes: the basis has a leading bit at every place. -/
def SpansSyndromes (cfg : Config) : Prop :=
  ∀ k < 10, ∃ b ∈ checkBasis cfg 10, lead b.1 = k

theorem xorReduce_checkBasis_eq_zero {cfg : Config} (h : SpansSyndromes cfg) (p : Syndrome × BitVec 10) :
    (xorReduce (checkBasis cfg 10) p).1 = 0#10 := by
  apply BitVec.eq_of_getLsbD_eq
  intro k hk
  obtain ⟨b, hb, rfl⟩ := h k hk
  rw [xorReduce_clears (checkBasis_echelon cfg 10) p b hb, BitVec.getLsbD_zero]

/-- Where the basis spans, `checkBits` answers what it promises: `SYN(c) = t`. -/
theorem syn_checkBits {cfg : Config} (h : SpansSyndromes cfg) (t : Syndrome) :
    syn cfg (checkWord (checkBits cfg t)) = t := by
  have hres := residue_xorReduce (residue_checkBasis cfg le_rfl) (t, 0#10)
  simpa [residue, xorReduce_checkBasis_eq_zero h, checkBits, checkWord_zero] using hres

theorem syn_windowWith {cfg : Config} (h : SpansSyndromes cfg) (t : Syndrome) (d : DataWord) :
    syn cfg (windowWith cfg t d) = t := by
  rw [windowWith, syn_append, syn_checkBits h, BitVec.xor_comm t, ← BitVec.xor_assoc, BitVec.xor_self,
    BitVec.zero_xor]

theorem data_windowWith (cfg : Config) (t : Syndrome) (d : DataWord) : (windowWith cfg t d).extractLsb' 10 16 = d :=
  BitVec.extractLsb'_append_eq_left

theorem roleOfSyndrome_offs {cfg : Config} (h : cfg.offsDistinct = true) (r : BlockRole) :
    roleOfSyndrome cfg (offs cfg r) = some r := by
  simp only [Config.offsDistinct, Config.roleConstants] at h
  cases r <;> grind [roleOfSyndrome, offs]

/-- The word of a block has its role in every legal configuration whose table can make every syndrome. -/
theorem roleOf_blockWord {cfg : Config} (hspan : SpansSyndromes cfg) (hdistinct : cfg.offsDistinct = true)
    (r : BlockRole) (d : DataWord) : roleOf cfg (blockWord cfg r d) = some r := by
  rw [roleOf, blockWord, syn_windowWith hspan, roleOfSyndrome_offs hdistinct]

theorem referenceConfig_spansSyndromes : SpansSyndromes referenceConfig := by
  unfold SpansSyndromes; decide

/-- Settles O47, from what the reference tables share with every configuration that spans the syndromes. -/
theorem blockWordHasItsRoleAndData : Obligations.BlockWordHasItsRoleAndData := fun r d =>
  ⟨roleOf_blockWord referenceConfig_spansSyndromes (by decide) r d, data_windowWith _ _ d⟩

end Sys2Proof.Machine
end

section
/-! SUPPORT. The comparison of a syndrome with the five constants (40_syndrome_decoder.md R101): what it answers is a
role whose constant matches, in every configuration; that it answers each such role is where the distinctness of R102
enters. -/

namespace Sys2Proof.Machine

/-- The answer's constant matches, whether or not the constants are distinct: each branch has tested its own role. -/
theorem eq_offs_of_roleOfSyndrome {cfg : Config} {t : Syndrome} {r : BlockRole} (h : roleOfSyndrome cfg t = some r) :
    t = offs cfg r := by
  unfold roleOfSyndrome at h
  split_ifs at h with hA hB hC hCp hD <;> cases h
  case pos => exact hA
  case pos => exact hB
  case pos => exact hC
  case pos => exact hCp
  case pos => exact hD

theorem roleOfSyndrome_eq_some_iff {cfg : Config} (h : cfg.offsDistinct = true) (t : Syndrome) (r : BlockRole) :
    roleOfSyndrome cfg t = some r ↔ t = offs cfg r :=
  ⟨eq_offs_of_roleOfSyndrome, fun ht => ht ▸ roleOfSyndrome_offs h r⟩

theorem roleOfSyndrome_eq_none_iff {cfg : Config} (h : cfg.offsDistinct = true) (t : Syndrome) :
    roleOfSyndrome cfg t = none ↔ ∀ r, t ≠ offs cfg r := by
  simp only [Option.eq_none_iff_forall_ne_some, ne_eq, roleOfSyndrome_eq_some_iff h]

/-- No two roles share a constant (R102): the comparison, applied to the constant, gives the role back. -/
theorem offs_injective {cfg : Config} (h : cfg.offsDistinct = true) : Function.Injective (offs cfg) := fun r r' hrr' =>
  Option.some.inj <| by rw [← roleOfSyndrome_offs h r, hrr', roleOfSyndrome_offs h r']

/-- Settles O17: the comparison characterised by its constants, at the syndrome of the window. -/
theorem roleIsTheConstantThatMatches : Obligations.RoleIsTheConstantThatMatches := fun cfg w hdistinct =>
  ⟨roleOfSyndrome_eq_some_iff hdistinct (syn cfg w), roleOfSyndrome_eq_none_iff hdistinct (syn cfg w),
    fun _ _ hr hr' => offs_injective hdistinct (hr.symm.trans hr')⟩

end Sys2Proof.Machine
end

section
/-! SUPPORT. The Bit Window (41_bit_window.md R110): a tick shifts W and nothing after the shift touches it, a run of bits
is the ticks of these bits one after the other, and the bits of a word shifted in oldest first are the word. -/

namespace Sys2Proof.Machine

/-! ### One shift -/

theorem getLsbD_shifted_zero (w : Window) (b : BitVec 1) : (shifted w b).getLsbD 0 = b.getLsbD 0 := by
  simp [shifted]

theorem getLsbD_shifted_succ (w : Window) (b : BitVec 1) {k : Nat} (hk : k < 25) :
    (shifted w b).getLsbD (k + 1) = w.getLsbD k := by
  simp [shifted_window, show k + 1 < 26 by omega, show k < 26 by omega]

/-! ### The window of a tick -/

/-- The Group Decoder writes outputs and no window (44_group_decoder.md R151, R152). -/
@[simp] theorem decodeGroup_w (a b c d : DataWord) (s : State) : (decodeGroup a b c d s).w = s.w := by
  rcases decodeGroup_cases a b c d s with ⟨-, he⟩ | ⟨-, he⟩ | ⟨-, -, -, he⟩ <;> rw [he]
  · rfl
  · simp [extractRt]

/-- Every arm of the Block Synchronizer reads the window and leaves it. -/
@[simp] theorem synchronize_w (q : SyncState) (s : State) : (synchronize q s).w = s.w := by
  cases q <;> simp only [synchronize]
  case seekingA => unfold seekA; split_ifs <;> rfl
  case expectingB => unfold expectB; split_ifs <;> rfl
  case expectingC => unfold expectC; split_ifs <;> rfl
  case expectingD => unfold expectD; split_ifs <;> simp [decodeSlots]

@[simp] theorem submitBit_w (b : BitVec 1) (s : State) : (submitBit b s).w = shifted s.w b :=
  synchronize_w _ _

/-- Settles O12: the window of the tick is the shifted one, whatever arm of the synchroniser runs. -/
theorem everyBitShiftsTheWindow : Obligations.EveryBitShiftsTheWindow := by
  intro s b
  refine ⟨submitBit b s, exec_bitInstr b s, ?_⟩
  rw [submitBit_w]
  exact ⟨shifted_window s.w b, getLsbD_shifted_zero s.w b, fun _ hk => getLsbD_shifted_succ s.w b hk⟩

/-! ### A tick does not look at the operations still to come -/

theorem decodeGroup_present (a b c d : DataWord) (xs : List Presented) (s : State) :
    decodeGroup a b c d (s.present xs) = (decodeGroup a b c d s).present xs := by
  unfold decodeGroup
  split_ifs
  · rfl
  · rw [extractRt_eq, extractRt_eq]
    split_ifs <;> rfl
  · rfl

theorem decodeSlots_present (xs : List Presented) (s : State) :
    decodeSlots (s.present xs) = (decodeSlots s).present xs :=
  decodeGroup_present _ _ _ _ xs s

/-- Each arm decides by POS and the role, which are the same with other operations to come. -/
theorem synchronize_present (q : SyncState) (xs : List Presented) (s : State) :
    synchronize q (s.present xs) = (synchronize q s).present xs := by
  cases q <;> simp only [synchronize]
  case seekingA => rw [seekA, seekA, apply_ite (State.present xs), apply_ite (State.present xs)]; rfl
  case expectingB => rw [expectB, expectB, apply_ite (State.present xs), apply_ite (State.present xs)]; rfl
  case expectingC => rw [expectC, expectC, apply_ite (State.present xs), apply_ite (State.present xs)]; rfl
  case expectingD =>
    rw [expectD, expectD, apply_ite (State.present xs), apply_ite (State.present xs), ← decodeSlots_present]; rfl

theorem submitBit_present (b : BitVec 1) (xs : List Presented) (s : State) :
    submitBit b (s.present xs) = (submitBit b s).present xs :=
  synchronize_present s.state xs (receive b s)

/-! ### A run of bits -/

theorem decodePresented_bitCommand (b : BitVec 1) : decodePresented (bitCommand b) = bitInstr b := by
  revert b; decide

/-- The step of a legal configuration to which a bit is presented is the tick that receives it. -/
theorem step_bitCommand {s : State} (h : s.cfg.wellFormed = true) (b : BitVec 1) (xs : List Presented) :
    step (s.present (bitCommand b :: xs)) = .next ((submitBit b s).present xs) := by
  rw [step_eq_next_iff, ← submitBit_present]
  refine ⟨h, ?_⟩
  change exec (decodePresented (bitCommand b)) (s.present xs) = _
  rw [decodePresented_bitCommand, exec_bitInstr]

/-- The ticks of the bits of a list, the first received first. -/
def submitBits (bs : List (BitVec 1)) (s : State) : State :=
  bs.foldl (fun s b => submitBit b s) s

@[simp] theorem submitBits_cons (b : BitVec 1) (bs : List (BitVec 1)) (s : State) :
    submitBits (b :: bs) s = submitBits bs (submitBit b s) := rfl

/-- A run of bits is their ticks, and no operation is left to come. -/
theorem afterBits_eq {s : State} (h : s.cfg.wellFormed = true) (bs : List (BitVec 1)) :
    afterBits s bs = .next ((submitBits bs s).present []) := by
  induction bs generalizing s with
  | nil => rfl
  | cons b bs ih =>
    calc afterBits s (b :: bs)
        = afterBits (submitBit b s) bs := run_succ_next (step_bitCommand h b _)
      _ = .next ((submitBits bs (submitBit b s)).present []) := ih (by rwa [submitBit_cfg])

@[simp] theorem windowAfter_cons (w : Window) (b : BitVec 1) (bs : List (BitVec 1)) :
    windowAfter w (b :: bs) = windowAfter (shifted w b) bs := by
  rw [shifted_window]; rfl

@[simp] theorem submitBits_w (bs : List (BitVec 1)) (s : State) : (submitBits bs s).w = windowAfter s.w bs := by
  induction bs generalizing s with
  | nil => rfl
  | cons b bs ih => rw [submitBits_cons, ih, submitBit_w, windowAfter_cons]

/-! ### The bits of a word (20_memory.md R52) -/

theorem windowAfter_concat (w : Window) (b : BitVec 1) (bs : List (BitVec 1)) :
    windowAfter w (bs ++ [b]) = shifted (windowAfter w bs) b := by
  rw [shifted_window]; exact List.foldl_concat _ w b bs

/-- The `n` oldest bits of a word, bit 25 first. -/
def oldestBits (word : Window) (n : Nat) : List (BitVec 1) :=
  (List.range n).map fun k => word.extractLsb' (25 - k) 1

theorem oldestBits_succ (word : Window) (n : Nat) :
    oldestBits word (n + 1) = oldestBits word n ++ [word.extractLsb' (25 - n) 1] := by
  simp [oldestBits, List.range_succ]

/-- The `n` oldest bits of a word stand at the low end of the window, and the window's old contents above them. -/
theorem windowAfter_oldestBits (w word : Window) {n : Nat} (hn : n ≤ 26) :
    windowAfter w (oldestBits word n) = (w <<< n) ||| (word >>> (26 - n)) := by
  induction n with
  | zero => simp [oldestBits, windowAfter, BitVec.ushiftRight_eq_zero]
  | succ n ih =>
    rw [oldestBits_succ, windowAfter_concat, ih (by omega)]
    apply BitVec.eq_of_getLsbD_eq
    rintro (_ | k) hk
    · rw [getLsbD_shifted_zero]
      simp [show 26 - (n + 1) = 25 - n by omega]
    · have hidx : 26 - n + k = 26 - (n + 1) + (k + 1) := by omega
      rw [getLsbD_shifted_succ _ _ (by omega)]
      simp [hidx, hk, show k < 26 by omega]

/-- A whole word pushes everything out that the window held before. -/
theorem windowAfter_bitsOf (w word : Window) : windowAfter w (bitsOf word) = word := by
  calc windowAfter w (bitsOf word)
      = (w <<< 26) ||| (word >>> 0) := windowAfter_oldestBits w word le_rfl
    _ = word := by simp [BitVec.shiftLeft_eq_zero]

/-- Settles O13: the run is the 26 ticks, and its window the 26 shifts. -/
theorem bitsOfAWordFillTheWindow : Obligations.BitsOfAWordFillTheWindow := by
  intro s word h
  refine ⟨_, afterBits_eq h (bitsOf word), ?_⟩
  rw [present_w, submitBits_w, windowAfter_bitsOf]

end Sys2Proof.Machine
end

section
/-! SUPPORT. Long runs of bits that change nothing but W, POS and the role wire: the stall of EXPECTING_B and
EXPECTING_D until the counter has come round (42_block_synchronizer.md R129), and SEEKING_A without a role A (R130). -/

namespace Sys2Proof.Machine

/-! ### A quiet run -/

/-- The state after bits that the Block Synchronizer has left alone but for the position: they stand in the window, and
the role wire answers for it (from the first bit on). -/
def State.heard (s : State) (bs : List (BitVec 1)) (p : Nat) : State :=
  { s with
    w := windowAfter s.w bs
    pos := p
    role := if bs = [] then s.role else roleOf s.cfg (windowAfter s.w bs) }

theorem heard_role_concat (s : State) (bs : List (BitVec 1)) (b : BitVec 1) (p : Nat) :
    (s.heard (bs ++ [b]) p).role = roleOf s.cfg (windowAfter s.w (bs ++ [b])) := by
  simp [State.heard]

theorem receive_heard (s : State) (bs : List (BitVec 1)) (b : BitVec 1) (p : Nat) :
    receive b (s.heard bs p) = s.heard (bs ++ [b]) ((p + 1) % 2 ^ s.cfg.posw) := by
  simp [receive_eq, State.heard, windowAfter_concat, posNext]

theorem submitBit_heard (s : State) (bs : List (BitVec 1)) (b : BitVec 1) (p : Nat) :
    submitBit b (s.heard bs p) = synchronize s.state (s.heard (bs ++ [b]) ((p + 1) % 2 ^ s.cfg.posw)) :=
  congrArg (synchronize s.state) (receive_heard s bs b p)

theorem submitBits_concat (bs : List (BitVec 1)) (b : BitVec 1) (s : State) :
    submitBits (bs ++ [b]) s = submitBit b (submitBits bs s) :=
  List.foldl_concat _ s b bs

/-- The induction over a quiet run, last bit last: if after each initial part of the bits the arm of the old STATE only
moves POS along `pos`, then the whole run does. -/
theorem submitBits_quiet {s : State} {bs : List (BitVec 1)} (pos : Nat → Nat) (hpos : pos 0 = s.pos)
    (hquiet : ∀ pre b, pre ++ [b] <+: bs →
      synchronize s.state (s.heard (pre ++ [b]) ((pos pre.length + 1) % 2 ^ s.cfg.posw)) =
        s.heard (pre ++ [b]) (pos (pre.length + 1))) :
    submitBits bs s = s.heard bs (pos bs.length) := by
  induction bs using List.reverseRecOn with
  | nil => exact (congrArg (s.heard []) hpos).symm
  | append_singleton bs b ih =>
    have ih := ih fun pre c hpre => hquiet pre c (hpre.trans (List.prefix_append bs [b]))
    rw [submitBits_concat, ih, submitBit_heard, hquiet bs b (List.prefix_refl _), List.length_append,
      List.length_singleton]

/-- The counter of a legal configuration can hold 31 (00_scope.md R7). -/
theorem counter_size {cfg : Config} (h : cfg.wellFormed = true) : 32 ≤ 2 ^ cfg.posw := by
  have hposw : 5 ≤ cfg.posw := by
    simp only [Config.wellFormed, Bool.and_eq_true, Config.poswEnough, decide_eq_true_eq] at h
    exact h.2
  exact Nat.pow_le_pow_right Nat.two_pos hposw

/-! ### The stall (42_block_synchronizer.md R129) -/

/-- A counter of `m` values that stands at 26 does not come back to 26 before `m` counts. -/
theorem counter_ne_26 {m n : Nat} (hm : 32 ≤ m) (hn : 0 < n) (hnm : n < m) : (26 + n) % m ≠ 26 := by
  rcases Nat.lt_or_ge (26 + n) m with h | h
  · rw [Nat.mod_eq_of_lt h]; omega
  · rw [Nat.mod_eq_sub_mod h, Nat.mod_eq_of_lt (by omega)]; omega

/-- A locked state that stands at 26 is quiet as long as POS has not come round. -/
theorem submitBits_stall {s : State} {bs : List (BitVec 1)} (hwf : s.cfg.wellFormed = true)
    (hlocked : s.state ≠ .seekingA) (hpos : s.pos = 26) (hlen : bs.length < 2 ^ s.cfg.posw) :
    submitBits bs s = s.heard bs ((26 + bs.length) % 2 ^ s.cfg.posw) := by
  have hm := counter_size hwf
  refine submitBits_quiet (fun n => (26 + n) % 2 ^ s.cfg.posw) ?_ fun pre b hpre => ?_
  · rw [hpos]; exact Nat.mod_eq_of_lt (by omega)
  · have hn : pre.length + 1 < 2 ^ s.cfg.posw := by simpa using hpre.length_le.trans_lt hlen
    rw [Nat.mod_add_mod, Nat.add_assoc]
    exact synchronize_locked_off hlocked (counter_ne_26 hm (Nat.succ_pos _) hn)

/-- Settles O27: the stalled run of ticks, with no operation left to come. -/
theorem stallLastsUntilTheCounterWraps : Obligations.StallLastsUntilTheCounterWraps := by
  intro s bs hwf hstate hpos hlen
  have hlocked : s.state ≠ .seekingA := by rcases hstate with h | h <;> simp [h]
  rw [afterBits_eq hwf, submitBits_stall hwf hlocked hpos hlen]
  rfl

/-- The tick number `2^POSW` of a stall finds POS at 26 again: the arm of the stalled STATE tests the window. -/
theorem afterBits_wrap {s : State} {bs : List (BitVec 1)} (b : BitVec 1) (hwf : s.cfg.wellFormed = true)
    (hlocked : s.state ≠ .seekingA) (hpos : s.pos = 26) (hlen : bs.length + 1 = 2 ^ s.cfg.posw) :
    afterBits s (bs ++ [b]) = .next ((synchronize s.state (s.heard (bs ++ [b]) 26)).present []) := by
  have hm := counter_size hwf
  have hround : ((26 + bs.length) % 2 ^ s.cfg.posw + 1) % 2 ^ s.cfg.posw = 26 := by
    rw [Nat.mod_add_mod, Nat.add_assoc, hlen, Nat.add_mod_right, Nat.mod_eq_of_lt (by omega)]
  rw [afterBits_eq hwf, submitBits_concat, submitBits_stall hwf hlocked hpos (by omega), submitBit_heard, hround]

/-- Settles O28: the test of `afterBits_wrap` matches; in EXPECTING_D the tick's Group Decoder is the GROUP row that the
slots decode to. -/
theorem stallEndsOnAMatchAfterTheWrap : Obligations.StallEndsOnAMatchAfterTheWrap := by
  intro s bs b hwf hpos hlen
  refine ⟨fun hstate hrole => ?_, fun hstate hrole => ?_⟩
  · have hmatch : expectB (s.heard (bs ++ [b]) 26) = _ := expectB_match rfl ((heard_role_concat ..).trans hrole)
    rw [afterBits_wrap b hwf (by simp [hstate]) hpos hlen, hstate, synchronize, hmatch]
    simp [State.heard, hrole, capture, enter, State.present, dataOf]
  · have hmatch : expectD (s.heard (bs ++ [b]) 26) = _ := expectD_match rfl ((heard_role_concat ..).trans hrole)
    refine ⟨_, decode_group _ _, ?_⟩
    rw [afterBits_wrap b hwf (by simp [hstate]) hpos hlen, hstate, synchronize, hmatch, exec_decodeGroupView,
      ← decodeSlots_present]
    simp [State.heard, hrole, capture, enter, State.present, dataOf, decodeSlots]

/-! ### Seeking without a role A (42_block_synchronizer.md R130) -/

theorem holdPos_of_ge {s : State} (h : 26 ≤ s.pos) : holdPos s = { s with pos := 26 } := by
  have hpos : (if 26 < s.pos then 26 else s.pos) = 26 := by split <;> omega
  rw [holdPos, hpos]

/-- SEEKING_A holds POS at 26 where the window has not role A, and counts before that. -/
theorem seekA_heard {s : State} {bs : List (BitVec 1)} {p : Nat}
    (hrole : 26 ≤ p → (s.heard bs p).role ≠ some .A) : seekA (s.heard bs p) = s.heard bs (min 26 p) := by
  rcases Nat.lt_or_ge p 26 with h | h
  · rw [seekA_before h, Nat.min_eq_right h.le]
  · rw [seekA_mismatch h (hrole h), holdPos_of_ge h, Nat.min_eq_left h]
    rfl

/-- Settles O29: every tick of the run is quiet, and POS is held at 26 well before the counter could wrap. -/
theorem streamWithoutRoleANeverLocks : Obligations.StreamWithoutRoleANeverLocks := by
  intro s bs hwf hstate hpos hnoA
  have hm := counter_size hwf
  have hrun : submitBits bs s = s.heard bs (min 26 (s.pos + bs.length)) := by
    refine submitBits_quiet (fun n => min 26 (s.pos + n)) (Nat.min_eq_right hpos) fun pre b hpre => ?_
    have hnowrap : (min 26 (s.pos + pre.length) + 1) % 2 ^ s.cfg.posw = min 26 (s.pos + pre.length) + 1 :=
      Nat.mod_eq_of_lt (by omega)
    have hprefix : bs.take (pre.length + 1) = pre ++ [b] := by
      simpa using (List.prefix_iff_eq_take.1 hpre).symm
    have hheld : min 26 (min 26 (s.pos + pre.length) + 1) = min 26 (s.pos + (pre.length + 1)) := by omega
    rw [hnowrap, hstate, synchronize, seekA_heard, hheld]
    intro hcheck
    rw [heard_role_concat, ← hprefix]
    exact hnoA _ (by simpa using hpre.length_le) (Nat.succ_pos _) (by omega)
  rw [afterBits_eq hwf, hrun]
  rfl

end Sys2Proof.Machine
end

section
/-! SUPPORT. The group assembler: the transition table of the Block Synchronizer (42_block_synchronizer.md R128) as a
relation on ticks, the tick that completes a group as the GROUP row of its four words (43_group_assembler.md R142), a
whole block from position 0, and the rows laid before the machine by `withFetchWord`. -/

namespace Sys2Proof.Machine

/-! ### The completed group (43_group_assembler.md R142) -/

/-- The tick before the Block Synchronizer, in the terms of the claims. -/
theorem receive_next (b : BitVec 1) (s : State) :
    receive b s = { s with w := wNext s b, pos := posNext s, role := roleNext s b } := by
  rw [receive_eq, shifted_window]; rfl

theorem submitBit_next (b : BitVec 1) (s : State) :
    submitBit b s = synchronize s.state { s with w := wNext s b, pos := posNext s, role := roleNext s b } :=
  congrArg (synchronize s.state) (receive_next b s)

/-- A D match runs the GROUP row that the three slots and the new data word decode to. -/
theorem exec_completedGroup {s : State} (hpos : s.pos = 26) (hrole : s.role = some .D) :
    exec (decodeGroupView (s.slot[0] ++ s.slot[1] ++ s.slot[2] ++ dataOf s.w)) (enter .seekingA (capture 3 s)) =
      .next (expectD s) := by
  rw [exec_decodeGroupView, expectD_match hpos hrole]
  simp [decodeSlots]

/-- Settles O24: a match is the completed group; otherwise POS or the role is not the one the arm tests for. -/
theorem tickInExpectingD : Obligations.TickInExpectingD := by
  intro s b hstate
  rw [exec_bitInstr, submitBit_next, hstate, synchronize]
  refine ⟨fun hpos hrole => ⟨_, decode_group _ _, ?_⟩, fun hmiss => congrArg _ ?_⟩
  · rw [← exec_completedGroup hpos hrole, ← hrole]
    rfl
  · by_cases hpos : posNext s = 26
    · exact expectD_mismatch hpos (hmiss.resolve_left (not_not_intro hpos))
    · exact synchronize_locked_off (q := .expectingD) (by decide) hpos

/-! ### The transition table (42_block_synchronizer.md R128) -/

/-- The rows of R128 that leave STATE: the tick of `s` that receives `b` writes the slot given (none on the fall-back of
decision D8) and enters the state given. -/
inductive TickEdge (s : State) (b : BitVec 1) : Option (Fin 4) → SyncState → Prop where
  | lock : s.state = .seekingA → 26 ≤ posNext s → roleNext s b = some .A → TickEdge s b (some 0) .expectingB
  | blockB : s.state = .expectingB → posNext s = 26 → roleNext s b = some .B → TickEdge s b (some 1) .expectingC
  | blockC : s.state = .expectingC → posNext s = 26 → roleNext s b = some .C ∨ roleNext s b = some .Cp →
    TickEdge s b (some 2) .expectingD
  | fallBack : s.state = .expectingC → posNext s = 26 → roleNext s b ≠ some .C → roleNext s b ≠ some .Cp →
    TickEdge s b none .expectingB
  | complete : s.state = .expectingD → posNext s = 26 → roleNext s b = some .D → TickEdge s b (some 3) .seekingA

theorem capturesSlot_iff {s : State} {b : BitVec 1} {k : Fin 4} :
    CapturesSlot s b k ↔ ∃ q, TickEdge s b (some k) q := by
  constructor
  · rintro (⟨hq, hpos, hr, rfl⟩ | ⟨hq, hpos, hr, rfl⟩ | ⟨hq, hpos, hr, rfl⟩ | ⟨hq, hpos, hr, rfl⟩)
    · exact ⟨_, .lock hq hpos hr⟩
    · exact ⟨_, .blockB hq hpos hr⟩
    · exact ⟨_, .blockC hq hpos hr⟩
    · exact ⟨_, .complete hq hpos hr⟩
  · rintro ⟨q, h⟩
    cases h with
    | lock hq hpos hr => exact .inl ⟨hq, hpos, hr, rfl⟩
    | blockB hq hpos hr => exact .inr (.inl ⟨hq, hpos, hr, rfl⟩)
    | blockC hq hpos hr => exact .inr (.inr (.inl ⟨hq, hpos, hr, rfl⟩))
    | complete hq hpos hr => exact .inr (.inr (.inr ⟨hq, hpos, hr, rfl⟩))

/-- The Group Decoder writes no register of the Block Synchronizer and no slot (44_group_decoder.md R151, R152). -/
theorem decodeGroup_sync (a b c d : DataWord) (s : State) :
    (decodeGroup a b c d s).state = s.state ∧ (decodeGroup a b c d s).pos = s.pos ∧
      (decodeGroup a b c d s).slot = s.slot := by
  rcases decodeGroup_cases a b c d s with ⟨-, he⟩ | ⟨-, he⟩ | ⟨-, -, -, he⟩ <;> rw [he]
  · exact ⟨rfl, rfl, rfl⟩
  · simp [extractRt]
  · exact ⟨rfl, rfl, rfl⟩

/-- A tick on an edge enters its state at position 0 and writes its slot alone. -/
theorem submitBit_of_edge {s : State} {b : BitVec 1} {k : Option (Fin 4)} {q : SyncState} (h : TickEdge s b k q) :
    (submitBit b s).state = q ∧ (submitBit b s).pos = 0 ∧
      (submitBit b s).slot = k.elim s.slot fun k => s.slot.set k (dataOf (wNext s b)) := by
  rw [submitBit_next]
  cases h with
  | lock hq hpos hr => rw [hq, synchronize, seekA_match hpos hr]; exact ⟨rfl, rfl, rfl⟩
  | blockB hq hpos hr => rw [hq, synchronize, expectB_match hpos hr]; exact ⟨rfl, rfl, rfl⟩
  | blockC hq hpos hr => rw [hq, synchronize, expectC_match hpos hr]; exact ⟨rfl, rfl, rfl⟩
  | fallBack hq hpos hC hCp => rw [hq, synchronize, expectC_mismatch hpos ⟨hC, hCp⟩]; exact ⟨rfl, rfl, rfl⟩
  | complete hq hpos hr => rw [hq, synchronize, expectD_match hpos hr]; exact decodeGroup_sync _ _ _ _ _

/-- A tick on no edge keeps STATE and every slot: no check point, or a mismatch that stalls. -/
theorem submitBit_of_no_edge {s : State} {b : BitVec 1} (h : ∀ k q, ¬ TickEdge s b k q) :
    (submitBit b s).state = s.state ∧ (submitBit b s).slot = s.slot := by
  rw [submitBit_next]
  cases hq : s.state with
  | seekingA =>
    rcases Nat.lt_or_ge (posNext s) 26 with hpos | hpos
    · rw [synchronize, seekA_before hpos]; exact ⟨rfl, rfl⟩
    · rw [synchronize, seekA_mismatch hpos fun hr => h _ _ (.lock hq hpos hr)]; exact ⟨rfl, rfl⟩
  | expectingB =>
    by_cases hpos : posNext s = 26
    · rw [synchronize, expectB_mismatch hpos fun hr => h _ _ (.blockB hq hpos hr)]; exact ⟨rfl, rfl⟩
    · rw [synchronize_locked_off (by decide) hpos]; exact ⟨rfl, rfl⟩
  | expectingC =>
    have hpos : posNext s ≠ 26 := fun hpos => h _ _ <| .fallBack hq hpos
      (fun hr => h _ _ (.blockC hq hpos (.inl hr))) (fun hr => h _ _ (.blockC hq hpos (.inr hr)))
    rw [synchronize_locked_off (by decide) hpos]; exact ⟨rfl, rfl⟩
  | expectingD =>
    by_cases hpos : posNext s = 26
    · rw [synchronize, expectD_mismatch hpos fun hr => h _ _ (.complete hq hpos hr)]; exact ⟨rfl, rfl⟩
    · rw [synchronize_locked_off (by decide) hpos]; exact ⟨rfl, rfl⟩

/-- Settles O25: of what a step can do, only a reset and a tick on an edge of R128 write STATE. -/
theorem stateChangesOnlyAtAcceptedCheckPoints : Obligations.StateChangesOnlyAtAcceptedCheckPoints := by
  intro s t hstep hchange
  cases stepEffect_of_step hstep with
  | silent | idle | read => exact absurd rfl hchange
  | reset c rest hin hc => exact .inl ⟨⟨c, rest, hin, hc⟩, rfl⟩
  | bit b rest hin =>
    rw [submitBit_present] at hchange ⊢
    by_cases hedge : ∃ k q, TickEdge s b k q
    · obtain ⟨k, q, hedge⟩ := hedge
      obtain ⟨hstate, hpos, -⟩ := submitBit_of_edge hedge
      refine .inr ⟨b, ⟨rest, hin⟩, hpos, ?_⟩
      cases hedge with
      | lock hq hcheck hr => exact .inl ⟨hq, hcheck, hr, hstate⟩
      | blockB hq hcheck hr => exact .inr (.inl ⟨hq, hcheck, hr, hstate⟩)
      | blockC hq hcheck hr => exact .inr (.inr (.inl ⟨hq, hcheck, hr, hstate⟩))
      | fallBack hq hcheck hC hCp => exact .inr (.inr (.inr (.inl ⟨hq, hcheck, hC, hCp, hstate⟩)))
      | complete hq hcheck hr => exact .inr (.inr (.inr (.inr ⟨hq, hcheck, hr, hstate⟩)))
    · push Not at hedge
      exact absurd (submitBit_of_no_edge hedge).1 hchange

/-- Of all rows only the two ticks write a slot (43_group_assembler.md R141). -/
theorem exec_keeps_slot (i : Instr) (s : State) (h0 : i ≠ .submitBit0) (h1 : i ≠ .submitBit1) :
    ∃ t, exec i s = .next t ∧ t.slot = s.slot := by
  cases i with
  | submitBit0 => exact absurd rfl h0
  | submitBit1 => exact absurd rfl h1
  | groupT2MessageText a x v i c d => exact ⟨_, rfl, by simp [extractRt]⟩
  | _ => exact ⟨_, rfl, rfl⟩

/-- Settles O26: the edges that capture are those of `CapturesSlot`; the fall-back and no edge leave the slots. -/
theorem oneSlotIsCapturedPerMatch : Obligations.OneSlotIsCapturedPerMatch := by
  refine ⟨fun s b => ⟨submitBit b s, exec_bitInstr b s, fun k hk => ?_, fun hno => ?_⟩, exec_keeps_slot⟩
  · obtain ⟨q, hedge⟩ := capturesSlot_iff.1 hk
    obtain ⟨-, -, hslot⟩ := submitBit_of_edge hedge
    exact hslot
  · by_cases hedge : ∃ q, TickEdge s b none q
    · obtain ⟨q, hedge⟩ := hedge
      obtain ⟨-, -, hslot⟩ := submitBit_of_edge hedge
      exact hslot
    · refine (submitBit_of_no_edge fun k q hkq => ?_).2
      cases k with
      | none => exact hedge ⟨q, hkq⟩
      | some k => exact hno k (capturesSlot_iff.2 ⟨q, hkq⟩)

/-! ### A block from position 0 -/

theorem submitBits_append (bs cs : List (BitVec 1)) (s : State) :
    submitBits (bs ++ cs) s = submitBits cs (submitBits bs s) :=
  List.foldl_append

/-- Before position 26 no arm acts (42_block_synchronizer.md R121 to R124). -/
theorem synchronize_before {q : SyncState} {s : State} (h : s.pos < 26) : synchronize q s = s := by
  by_cases hq : q = .seekingA
  · rw [hq]; exact seekA_before h
  · exact synchronize_locked_off hq h.ne

/-- The 26 bits of a word from position 0: the first 25 are only counted, and the last is the check point of the STATE,
with the word in the window. -/
theorem submitBits_bitsOf {s : State} (hwf : s.cfg.wellFormed = true) (hpos : s.pos = 0) (word : Window) :
    submitBits (bitsOf word) s =
      synchronize s.state { s with w := word, pos := 26, role := roleOf s.cfg word } := by
  have hm := counter_size hwf
  have hquiet : submitBits (oldestBits word 25) s = s.heard (oldestBits word 25) 25 := by
    have hlen : (oldestBits word 25).length = 25 := by simp [oldestBits]
    rw [← hlen]
    refine submitBits_quiet id hpos.symm fun pre b hpre => ?_
    have hle : pre.length + 1 ≤ 25 := by simpa [hlen] using hpre.length_le
    rw [id, Nat.mod_eq_of_lt (by omega)]
    exact synchronize_before (show pre.length + 1 < 26 by omega)
  have hbits : bitsOf word = oldestBits word 25 ++ [word.extractLsb' 0 1] := oldestBits_succ word 25
  have hword : s.heard (bitsOf word) 26 = { s with w := word, pos := 26, role := roleOf s.cfg word } := by
    rw [State.heard, windowAfter_bitsOf]; rfl
  rw [← hword, hbits, submitBits_concat, hquiet, submitBit_heard, Nat.mod_eq_of_lt (by omega)]

/-- The state after a block from position 0 that its STATE accepts. -/
def State.accepted (s : State) (word : Window) (k : Fin 4) (q : SyncState) : State :=
  { s with w := word, pos := 0, state := q, slot := s.slot.set k (dataOf word), role := roleOf s.cfg word }

theorem submitBits_blockA {s : State} (hwf : s.cfg.wellFormed = true) (hpos : s.pos = 0) (hq : s.state = .seekingA)
    {word : Window} (hr : roleOf s.cfg word = some .A) :
    submitBits (bitsOf word) s = s.accepted word 0 .expectingB := by
  rw [submitBits_bitsOf hwf hpos, hq, synchronize, seekA_match (Nat.le_refl 26) hr]
  rfl

theorem submitBits_blockB {s : State} (hwf : s.cfg.wellFormed = true) (hpos : s.pos = 0) (hq : s.state = .expectingB)
    {word : Window} (hr : roleOf s.cfg word = some .B) :
    submitBits (bitsOf word) s = s.accepted word 1 .expectingC := by
  rw [submitBits_bitsOf hwf hpos, hq, synchronize, expectB_match rfl hr]
  rfl

theorem submitBits_blockC {s : State} (hwf : s.cfg.wellFormed = true) (hpos : s.pos = 0) (hq : s.state = .expectingC)
    {word : Window} (hr : roleOf s.cfg word = some .C ∨ roleOf s.cfg word = some .Cp) :
    submitBits (bitsOf word) s = s.accepted word 2 .expectingD := by
  rw [submitBits_bitsOf hwf hpos, hq, synchronize, expectC_match rfl hr]
  rfl

/-- Block D completes the group: its GROUP row runs in the state that has the word captured. -/
theorem exec_blockD {s : State} (hwf : s.cfg.wellFormed = true) (hpos : s.pos = 0) (hq : s.state = .expectingD)
    {word : Window} (hr : roleOf s.cfg word = some .D) :
    exec (decodeGroupView (s.slot[0] ++ s.slot[1] ++ s.slot[2] ++ dataOf word)) (s.accepted word 3 .seekingA) =
      .next (submitBits (bitsOf word) s) := by
  rw [submitBits_bitsOf hwf hpos, hq, synchronize, ← exec_completedGroup rfl hr]
  rfl

/-- The state that has a whole group captured, its word D in the window. -/
def State.grouped (s : State) (a b c d : DataWord) (word : Window) : State :=
  { s with w := word, pos := 0, state := .seekingA, role := some .D, slot := #v[a, b, c, d] }

theorem slot_set_all (v : Vector DataWord 4) (a b c d : DataWord) :
    (((v.set 0 a).set 1 b).set 2 c).set 3 d = #v[a, b, c, d] := by
  ext i hi
  interval_cases i <;> simp

/-- The state after the blocks A, B and C of a group from SEEKING_A at position 0. -/
def State.threeBlocks (s : State) (wa wb wc : Window) : State :=
  ((s.accepted wa 0 .expectingB).accepted wb 1 .expectingC).accepted wc 2 .expectingD

/-- Three blocks from SEEKING_A at position 0, each accepted by the STATE that the one before has entered. -/
theorem submitBits_threeBlocks {s : State} (hwf : s.cfg.wellFormed = true) (hpos : s.pos = 0)
    (hq : s.state = .seekingA) {wa wb wc : Window} (ha : roleOf s.cfg wa = some .A) (hb : roleOf s.cfg wb = some .B)
    (hc : roleOf s.cfg wc = some .C ∨ roleOf s.cfg wc = some .Cp) :
    submitBits (bitsOf wa ++ bitsOf wb ++ bitsOf wc) s = s.threeBlocks wa wb wc := by
  rw [submitBits_append, submitBits_append, submitBits_blockA hwf hpos hq ha,
    submitBits_blockB (s := s.accepted wa 0 .expectingB) hwf rfl rfl hb]
  exact submitBits_blockC (s := (s.accepted wa 0 .expectingB).accepted wb 1 .expectingC) hwf rfl rfl hc

/-- An error-free group runs the GROUP row of its four data words in the state that has them captured. -/
theorem exec_group {s : State} (hwf : s.cfg.wellFormed = true) (hpos : s.pos = 0) (hq : s.state = .seekingA)
    {wa wb wc wd : Window} (ha : roleOf s.cfg wa = some .A) (hb : roleOf s.cfg wb = some .B)
    (hc : roleOf s.cfg wc = some .C ∨ roleOf s.cfg wc = some .Cp) (hd : roleOf s.cfg wd = some .D) :
    exec (decodeGroupView (dataOf wa ++ dataOf wb ++ dataOf wc ++ dataOf wd))
        (s.grouped (dataOf wa) (dataOf wb) (dataOf wc) (dataOf wd) wd) =
      .next (submitBits (bitsOf wa ++ bitsOf wb ++ bitsOf wc ++ bitsOf wd) s) := by
  have hexec := exec_blockD (s := s.threeBlocks wa wb wc) hwf rfl rfl hd
  have hview : (s.threeBlocks wa wb wc).slot[0] ++ (s.threeBlocks wa wb wc).slot[1] ++
      (s.threeBlocks wa wb wc).slot[2] = dataOf wa ++ dataOf wb ++ dataOf wc := by
    simp [State.threeBlocks, State.accepted]
  have hgrouped : (s.threeBlocks wa wb wc).accepted wd 3 .seekingA =
      s.grouped (dataOf wa) (dataOf wb) (dataOf wc) (dataOf wd) wd := by
    simp only [State.grouped, State.threeBlocks, State.accepted, ← slot_set_all s.slot, hd]
    rfl
  rw [hview, hgrouped] at hexec
  rw [submitBits_append _ (bitsOf wd), submitBits_threeBlocks hwf hpos hq ha hb hc, hexec]

theorem submitBits_present (bs : List (BitVec 1)) (xs : List Presented) (s : State) :
    submitBits bs (s.present xs) = (submitBits bs s).present xs := by
  induction bs generalizing s with
  | nil => rfl
  | cons b bs ih => rw [submitBits_cons, submitBit_present, ih, submitBits_cons]

/-- Settles O30: the run is the ticks of the four blocks, with no operation left to come. -/
theorem errorFreeGroupIsDecoded : Obligations.ErrorFreeGroupIsDecoded := by
  intro s wa wb wc wd hwf hstate hpos ha hb hc hd
  refine ⟨_, decode_group _ _, ?_⟩
  rw [afterBits_eq hwf, ← submitBits_present]
  exact (exec_group (s := s.present []) hwf hpos hstate ha hb hc hd).symm

/-! ### The rows laid before the machine (log 9) -/

theorem withFetchWord_cmd (s : State) (c : BitVec 3) :
    s.withFetchWord 8 c.toNat = s.present (.cmd c :: s.inputs) := by
  simp [State.withFetchWord, formatOfBits]

theorem withFetchWord_port (s : State) {n : Nat} {p : Port} (hp : portOfNumber n = some p) :
    s.withFetchWord 0 n = s.present (.read p :: s.inputs) := by
  simp [State.withFetchWord, formatOfBits, hp]

theorem withFetchWord_syndrome (s : State) (y : Syndrome) :
    s.withFetchWord 16 y.toNat = stageWindow (windowWith s.cfg y 0#16) s := by
  simp [State.withFetchWord, formatOfBits]

theorem withFetchWord_group (s : State) (g : GroupView) : s.withFetchWord 64 g.toNat = stageGroup g s := by
  simp [State.withFetchWord, formatOfBits]

/-- The step of a legal configuration performs the operation presented first. -/
theorem step_present {s : State} (hwf : s.cfg.wellFormed = true) (x : Presented) (xs : List Presented) :
    step (s.present (x :: xs)) = exec (decodePresented x) (s.present xs) :=
  if_pos hwf

theorem decode_cmd (cfg : Config) (c : BitVec 3) : decode cfg ⟨.cmd, c.toNat⟩ = .ok (decodeCmd c) := by
  have hfits : ¬ 2 ^ Format.cmd.width ≤ c.toNat := Nat.not_le.2 c.isLt
  simp [decode, hfits]

/-- A word of the PORT format is the read of a numbered port. -/
theorem decode_port_ok {cfg : Config} {n : Nat} {i : Instr} (h : decode cfg ⟨.port, n⟩ = .ok i) :
    ∃ p, portOfNumber n = some p ∧ i = decodePort p := by
  by_cases hwide : 2 ^ Format.port.width ≤ n
  · simp [decode, hwide] at h
  · cases hp : portOfNumber n with
    | none => simp [decode, hwide, hp] at h
    | some p => exact ⟨p, rfl, by simpa [decode, hwide, hp] using h.symm⟩

/-- A word of the SYNDROME format is the row of the role that it answers. -/
theorem decode_syndrome_ok {cfg : Config} {y : Syndrome} {i : Instr} (h : decode cfg ⟨.syndrome, y.toNat⟩ = .ok i) :
    ∃ r, roleOfSyndrome cfg y = some r ∧ i = roleRow r := by
  have hfits : ¬ 2 ^ Format.syndrome.width ≤ y.toNat := Nat.not_le.2 y.isLt
  cases hr : roleOfSyndrome cfg y with
  | none => simp [decode, hfits, hr] at h
  | some r => exact ⟨r, rfl, by simpa [decode, hfits, hr] using h.symm⟩

theorem exec_roleRow (r : BlockRole) (s : State) : exec (roleRow r) s = .next (reportRole (some r) s) := by
  cases r <;> rfl

/-- A window is its older 25 bits and then its last. -/
theorem shifted_ushiftRight (word : Window) : shifted (word >>> 1) (word.extractLsb' 0 1) = word := by
  apply BitVec.eq_of_getLsbD_eq
  rintro (_ | k) hk
  · rw [getLsbD_shifted_zero]
    simp
  · rw [getLsbD_shifted_succ _ _ (by omega), BitVec.getLsbD_ushiftRight, Nat.add_comm]

/-- The step after a window is staged has the whole window before it. -/
theorem step_stageWindow {s : State} (hwf : s.cfg.wellFormed = true) (word : Window) :
    step (stageWindow word s) =
      .next (synchronize s.state { s with w := word, pos := posNext s, role := roleOf s.cfg word }) := by
  have hstep := step_bitCommand (s := { s with w := word >>> 1 }) hwf (word.extractLsb' 0 1) s.inputs
  have hreceive : receive (word.extractLsb' 0 1) { s with w := word >>> 1 } =
      { s with w := word, pos := posNext s, role := roleOf s.cfg word } := by
    rw [receive_eq, shifted_ushiftRight]; rfl
  rw [submitBit, hreceive, ← synchronize_present] at hstep
  exact hstep

/-- A group view is its four words. -/
theorem view_words (g : GroupView) : field g 48 16 ++ field g 32 16 ++ field g 16 16 ++ field g 0 16 = g := by
  simp only [field]
  rw [BitVec.extractLsb'_append_extractLsb'_eq_extractLsb' (by rfl),
    BitVec.extractLsb'_append_extractLsb'_eq_extractLsb' (by rfl),
    BitVec.extractLsb'_append_extractLsb'_eq_extractLsb' (by rfl)]
  exact BitVec.extractLsb'_eq_self

/-- One D block short of the group `g`: what `stageGroup` sets beside the window. -/
def State.awaitingD (s : State) (g : GroupView) : State :=
  { s with state := .expectingD, pos := 25, slot := #v[field g 48 16, field g 32 16, field g 16 16, s.slot[3]] }

theorem stageGroup_eq (g : GroupView) (s : State) :
    stageGroup g s = stageWindow (blockWord s.cfg .D (field g 0 16)) (s.awaitingD g) :=
  rfl

/-- The step after a group is staged completes it. -/
theorem step_stageGroup {s : State} (hwf : s.cfg.wellFormed = true) (g : GroupView)
    (hd : roleOf s.cfg (blockWord s.cfg .D (field g 0 16)) = some .D) :
    step (stageGroup g s) = exec (decodeGroupView g)
      (s.grouped (field g 48 16) (field g 32 16) (field g 16 16) (field g 0 16)
        (blockWord s.cfg .D (field g 0 16))) := by
  have hdata : dataOf (blockWord s.cfg .D (field g 0 16)) = field g 0 16 := data_windowWith _ _ _
  have hpos : posNext (s.awaitingD g) = 26 := by
    have hm := counter_size hwf
    exact Nat.mod_eq_of_lt (show 26 < 2 ^ s.cfg.posw by omega)
  rw [stageGroup_eq, step_stageWindow (s := s.awaitingD g) hwf]
  refine Eq.trans (exec_completedGroup hpos hd).symm (congrArg₂ exec ?_ ?_)
  · exact congrArg decodeGroupView ((congrArg _ hdata).trans (view_words g))
  · simp [State.grouped, State.awaitingD, enter, capture, hd, hdata]

/-- Settles O48, format by format: what is presented, or the window and the group that is staged. -/
theorem fetchWordRunsTheRow : Obligations.FetchWordRunsTheRow := by
  intro s hwf
  refine ⟨fun c i hi => ?_, fun n i hi => ?_, fun y i hi hsyn => ?_, fun g i hi hd => ?_⟩
  · rw [decode_cmd] at hi
    cases hi
    rw [withFetchWord_cmd, step_present hwf]
    rfl
  · obtain ⟨p, hp, rfl⟩ := decode_port_ok hi
    rw [withFetchWord_port s hp, step_present hwf]
    rfl
  · obtain ⟨r, hr, rfl⟩ := decode_syndrome_ok hi
    have hrole : roleOf s.cfg (windowWith s.cfg y 0#16) = some r := by rw [roleOf, hsyn, hr]
    refine ⟨_, exec_roleRow r _, ?_⟩
    rw [withFetchWord_syndrome, step_stageWindow hwf, hrole]
    rfl
  · rw [decode_group] at hi
    cases hi
    rw [withFetchWord_group]
    exact step_stageGroup hwf g hd

end Sys2Proof.Machine
end

section
/-! SUPPORT. The outputs PI, SEL, PS, RT0 and RT1: what a completed group writes to them (44_group_decoder.md R151 to
R154), and that nothing but such a group and `reset` does (R156, 20_memory.md section 3). -/

namespace Sys2Proof.Machine

/-! ### A program-name segment (44_group_decoder.md R151) -/

theorem readByte_extractPs (s : State) (a : DataWord) (i : BitVec 2) (d : DataWord) (k : Nat) :
    readByte (extractPs a i d s) .ps k =
      if k = 2 * i.toNat then hi d else if k = 2 * i.toNat + 1 then lo d else readByte s .ps k := by
  rw [extractPs, readByte_memWriteWord, if_pos rfl, psOffset_eq]
  rfl

/-- A word that the space already holds is no write (R151, corner case d). -/
theorem Memory.writeWord_same {n : Nat} {m : Memory} {k : Nat} {x : DataWord} (h : m.wf n) (hk : k + 1 < n)
    (hhi : m.read k = hi x) (hlo : m.read (k + 1) = lo x) : m.writeWord k x = m := by
  rw [Memory.writeWord, ← hhi, ← hlo, Memory.write_same h (by omega), Memory.write_same h hk]

/-- Settles O32: both rows are the extraction; its bytes, and its write of bytes that are there. -/
theorem programNameGroupWritesOneSegment : Obligations.ProgramNameGroupWritesOneSegment := by
  intro s a x i c d row hrow
  have hexec : exec row s = .next (extractPs a i d s) := by rcases hrow with rfl | rfl <;> rfl
  have hbound : 2 * i.toNat + 1 < 8 := by omega
  refine ⟨_, hexec, rfl, hbound, ?_, ?_, fun k hk hk' => ?_, fun hwf hhi hlo => ?_⟩
  · rw [readByte_extractPs, if_pos rfl]; rfl
  · rw [readByte_extractPs, if_neg (by omega), if_pos rfl]; rfl
  · rw [readByte_extractPs, if_neg hk, if_neg hk']
  · rw [extractPs_eq, psOffset_eq]
    exact Memory.writeWord_same hwf hbound hhi hlo

/-! ### A message segment (44_group_decoder.md R152) -/

theorem readByte_extractRt (s : State) (a : DataWord) (v : BitVec 1) (i : BitVec 4) (c d : DataWord) (k : Nat) :
    readByte (extractRt a v i c d s) (rtSpace v) k =
      if k = 4 * i.toNat + 2 then hi d else if k = 4 * i.toNat + 3 then lo d
      else if k = 4 * i.toNat then hi c else if k = 4 * i.toNat + 1 then lo c
      else readByte s (rtSpace v) k := by
  change readByte (memWriteWord _ _ d (memWriteWord _ _ c (recordPi a s))) _ _ = _
  rw [readByte_memWriteWord, readByte_memWriteWord, if_pos rfl, if_pos rfl, rtOffset_eq]
  rfl

/-- Settles O33: the extraction's frame for each variant, and its bytes in the space that the variant selects. -/
theorem messageTextGroupWritesOneSegment : Obligations.MessageTextGroupWritesOneSegment := by
  intro s a x v i c d
  refine ⟨extractRt a v i c d s, rfl, ?_, ?_, by omega, ?_⟩
  · rintro rfl; rw [extractRt_eq, if_pos rfl]
  · rintro rfl; rw [extractRt_eq, if_neg (by decide)]
  · rintro sp (rfl : sp = rtSpace v)
    simp only [readByte_extractRt]
    refine ⟨?_, ?_, ?_, ?_, fun k hk => ?_⟩
    · simp [hi]
    · simp [lo]
    · simp [hi]
    · simp [lo]
    · rw [if_neg (by omega), if_neg (by omega), if_neg (by omega), if_neg (by omega)]

/-! ### The other groups (44_group_decoder.md R153) -/

/-- A D match hands the three slots and the new data word to the Group Decoder. -/
theorem expectD_completed {s : State} (hpos : s.pos = 26) (hrole : s.role = some .D) :
    expectD s =
      decodeGroup s.slot[0] s.slot[1] s.slot[2] (dataOf s.w) (enter .seekingA (capture 3 s)) := by
  rw [expectD_match hpos hrole]
  simp [decodeSlots]

/-- Settles O34: the thirteen rows are one meaning, and the Group Decoder of the completing tick is the same. -/
theorem ignoredGroupsChangeNothing : Obligations.IgnoredGroupsChangeNothing := by
  constructor
  · rintro s a x c d row (rfl | rfl | rfl | rfl | rfl | rfl | rfl | rfl | rfl | rfl | rfl | rfl | rfl) <;> rfl
  · intro s b hstate hpos hrole h0 h2 h15
    rw [exec_bitInstr, submitBit_next, hstate, synchronize, expectD_completed hpos hrole,
      decodeGroup_ignored ⟨h0, h15, h2⟩, hrole]
    rfl

/-! ### The one rule of type 2 (44_group_decoder.md R154) -/

theorem exec_messageTextView {cfg : Config} {a b c d : DataWord} {i : Instr} (ht : groupType b = 2#4)
    (hi : decode cfg ⟨.group, (a ++ b ++ c ++ d : BitVec 64).toNat⟩ = .ok i) (s : State) :
    exec i s = .next (extractRt a (variantOf b) (rtIndex b) c d s) := by
  rw [decode_group] at hi
  cases hi
  rw [exec_decodeGroupView, decodeGroup_messageText ht]

theorem variantOf_eq_lowBits (b : DataWord) : variantOf b = (b.extractLsb' 0 5).extractLsb' 4 1 := by
  ext k hk
  simp [variantOf]

theorem rtIndex_eq_lowBits (b : DataWord) : rtIndex b = (b.extractLsb' 0 5).extractLsb' 0 4 := by
  ext k hk
  simp [rtIndex]

/-- Settles O35: the variant and the index are all that the rule reads of word B, and they are its bits 4 to 0. -/
theorem twoCharacterVariantNeverActivates : Obligations.TwoCharacterVariantNeverActivates := by
  intro cfg a b b' c d i i' s ht ht' hlow hi hi'
  have hvariant : variantOf b = variantOf b' := by rw [variantOf_eq_lowBits, hlow, ← variantOf_eq_lowBits]
  have hindex : rtIndex b = rtIndex b' := by rw [rtIndex_eq_lowBits, hlow, ← rtIndex_eq_lowBits]
  have hexec' := exec_messageTextView ht' hi' s
  rw [← hvariant, ← hindex] at hexec'
  exact ⟨exec_messageTextView ht hi s, hexec'⟩

/-! ### Nothing else writes an output (44_group_decoder.md R156) -/

/-- The outputs of a state: PI, SEL, PS, RT0 and RT1. -/
def State.outputs (s : State) : DataWord × BitVec 1 × Memory × Memory × Memory :=
  (s.pi, s.sel, s.ps, s.rt0, s.rt1)

theorem outputs_ne_iff {s t : State} :
    t.outputs ≠ s.outputs ↔ t.pi ≠ s.pi ∨ t.sel ≠ s.sel ∨ t.ps ≠ s.ps ∨ t.rt0 ≠ s.rt0 ∨ t.rt1 ≠ s.rt1 := by
  simp only [State.outputs, ne_eq, Prod.mk.injEq, not_and_or]

theorem seekA_outputs (s : State) : (seekA s).outputs = s.outputs := by
  unfold seekA; split_ifs <;> rfl

theorem expectB_outputs (s : State) : (expectB s).outputs = s.outputs := by
  unfold expectB; split_ifs <;> rfl

theorem expectC_outputs (s : State) : (expectC s).outputs = s.outputs := by
  unfold expectC; split_ifs <;> rfl

/-- The Group Decoder writes an output for the types that it extracts alone (R150). -/
theorem groupType_of_decodeGroup_outputs_ne {a b c d : DataWord} {s : State}
    (h : (decodeGroup a b c d s).outputs ≠ s.outputs) :
    groupType b = 0#4 ∨ groupType b = 2#4 ∨ groupType b = 15#4 := by
  by_contra! hno
  obtain ⟨h0, h2, h15⟩ := hno
  exact h (by rw [decodeGroup_ignored ⟨h0, h15, h2⟩])

/-- The only arm that writes an output is a D match whose word B is of such a type (43_group_assembler.md R142). -/
theorem completed_of_synchronize_outputs_ne {q : SyncState} {s : State} (h : (synchronize q s).outputs ≠ s.outputs) :
    q = .expectingD ∧ s.pos = 26 ∧ s.role = some .D ∧
      (groupType s.slot[1] = 0#4 ∨ groupType s.slot[1] = 2#4 ∨ groupType s.slot[1] = 15#4) := by
  cases q with
  | seekingA => exact absurd (seekA_outputs s) h
  | expectingB => exact absurd (expectB_outputs s) h
  | expectingC => exact absurd (expectC_outputs s) h
  | expectingD =>
    by_cases hpos : s.pos = 26
    · by_cases hrole : s.role = some .D
      · rw [synchronize, expectD_completed hpos hrole] at h
        exact ⟨rfl, hpos, hrole, groupType_of_decodeGroup_outputs_ne h⟩
      · exact absurd (congrArg State.outputs (expectD_mismatch hpos hrole)) h
    · exact absurd (congrArg State.outputs (synchronize_locked_off (by decide) hpos)) h

/-- Settles O36: of what a step can do, the reset and the arm of a tick are all that can write an output. -/
theorem outputsChangeOnlyByResetOrACompletedGroup : Obligations.OutputsChangeOnlyByResetOrACompletedGroup := by
  intro s t hstep hchange
  rw [← outputs_ne_iff] at hchange
  cases stepEffect_of_step hstep with
  | silent | idle | read => exact absurd rfl hchange
  | reset c rest hin hc => exact .inl ⟨c, rest, hin, hc⟩
  | bit b rest hin =>
    rw [submitBit_present, submitBit_next] at hchange
    exact .inr ⟨b, ⟨rest, hin⟩, completed_of_synchronize_outputs_ne hchange⟩

end Sys2Proof.Machine
end

section
/-! SUPPORT. The output store (45_output_store_ops.md): `reset` as one function of the state, its bytes and the invariant
that it establishes (R172), and what the three reads return (R170, R171, R173). -/

namespace Sys2Proof.Machine

/-! ### Reset (45_output_store_ops.md R172) -/

/-- The state that RESET answers. -/
def afterReset (s : State) : State :=
  arm (enter .seekingA (clearBuffers s))

/-- Both low bits of the command word are ignored. -/
theorem exec_reset (v b : BitVec 1) (s : State) : exec (.reset v b) s = .next (afterReset s) := rfl

theorem eq_afterReset {s t : State} {v b : BitVec 1} (h : exec (.reset v b) s = .next t) : t = afterReset s := by
  rw [exec_reset] at h
  cases h
  rfl

@[simp] theorem afterReset_ready (s : State) : (afterReset s).ready = 1#1 := rfl

@[simp] theorem readByte_afterReset (s : State) (sp : Space) (k : Nat) : readByte (afterReset s) sp k = 0#8 := by
  cases sp <;> rfl

/-- A second reset finds everything as the first has left it (corner case b). -/
@[simp] theorem afterReset_afterReset (s : State) : afterReset (afterReset s) = afterReset s := rfl

theorem Memory.wf_nil (n : Nat) : Memory.wf n [] :=
  ⟨.nil, by simp⟩

/-- Of the invariant only the legality of the configuration rests on the state before. -/
theorem afterReset_inv {s : State} (hwf : s.cfg.wellFormed = true) : (afterReset s).Inv where
  configLegal := hwf
  posInWidth := Nat.two_pow_pos s.cfg.posw
  posSeeking := fun _ => Nat.zero_le 26
  posExpectingC := nofun
  psCanonical := Memory.wf_nil _
  rt0Canonical := Memory.wf_nil _
  rt1Canonical := Memory.wf_nil _

/-- Settles O10: POS is 0, STATE is SEEKING_A and the empty spaces are canonical. -/
theorem resetEstablishesTheInvariant : Obligations.ResetEstablishesTheInvariant :=
  fun s v b hwf => ⟨afterReset s, exec_reset v b s, afterReset_inv hwf⟩

/-- Settles O37: the frame of the answer, and its bytes. -/
theorem resetClearsTheBuffersAndSeeks : Obligations.ResetClearsTheBuffersAndSeeks :=
  fun s v b => ⟨afterReset s, exec_reset v b s, rfl, readByte_afterReset s⟩

/-- Settles O38: the answer to the first reset is its own reset. -/
theorem resetIsIdempotent : Obligations.ResetIsIdempotent := by
  intro s t v b v' b' h
  obtain rfl := eq_afterReset h
  rw [exec_reset, afterReset_afterReset]

/-! ### The reads (45_output_store_ops.md R170, R171, R173) -/

theorem exec_programName (s : State) :
    exec .programName s = .next (answer (.programName (memRead s .ps 0 8)) s) :=
  exec_decodePort .psOut s

theorem exec_messageText (s : State) :
    exec .messageText s = .next (answer (.messageText (memRead s (rtSpace s.sel) 0 64)) s) :=
  exec_decodePort .rtOut s

theorem exec_isReady (s : State) : exec .isReady s = .next (answer (.isReady s.ready) s) :=
  exec_decodePort .readyOut s

theorem memRead_zero (s : State) (sp : Space) (n : Nat) :
    memRead s sp 0 n = (List.range n).map (readByte s sp) := by
  simp only [memRead, Nat.zero_add]

/-- Settles O41: each read answers the bytes of its port from offset 0 up; SEL names the space of the message text. -/
theorem readsReturnAndWriteNothing : Obligations.ReadsReturnAndWriteNothing := by
  refine fun s => ⟨?_, fun hsel => ?_, fun hsel => ?_, exec_isReady s⟩
  · rw [exec_programName, memRead_zero]
    rfl
  · have hspace : rtSpace s.sel = .rt0 := by rw [hsel]; rfl
    rw [exec_messageText, hspace, memRead_zero]
    rfl
  · have hspace : rtSpace s.sel = .rt1 := by rw [hsel]; rfl
    rw [exec_messageText, hspace, memRead_zero]
    rfl

/-! ### The reads after reset -/

theorem memRead_afterReset (s : State) (sp : Space) (k n : Nat) :
    memRead (afterReset s) sp k n = List.replicate n 0#8 := by
  simp [memRead]

/-- Settles O43: every space reads zero after a reset, so the one that SEL selects does. -/
theorem messageIsBlankAfterReset : Obligations.MessageIsBlankAfterReset := by
  intro s t v b h
  obtain rfl := eq_afterReset h
  rw [exec_messageText, exec_programName, memRead_afterReset, memRead_afterReset]
  exact ⟨rfl, rfl⟩

/-- Settles O44: the read answers READY, which is 0 in every draw of power-on and 1 after a reset. -/
theorem readyIsZeroBeforeResetAndOneAfter : Obligations.ReadyIsZeroBeforeResetAndOneAfter := by
  refine ⟨fun _ _ _ _ _ _ _ _ _ => ⟨_, exec_isReady _, rfl⟩, fun s t v b h => ⟨_, exec_isReady t, ?_⟩⟩
  obtain rfl := eq_afterReset h
  simp only [answer_reply, afterReset_ready]

end Sys2Proof.Machine
end

section
/-! SUPPORT. What `reset` leaves in W, SLOT, PI and SEL cannot be seen (70_reset_and_hazards.md R218): a relation on two
runs that says which part of these registers is known to be the same at each point, kept by every step and strong
enough for every reply and port. -/

namespace Sys2Proof.Machine

/-! ### Two states that look alike -/

/-- The `n` youngest bits of two windows are the same. -/
def SameYoungest (n : Nat) (w w' : Window) : Prop :=
  ∀ k, k < n → w'.getLsbD k = w.getLsbD k

theorem SameYoungest.eq {n : Nat} {w w' : Window} (h : SameYoungest n w w') (hn : 26 ≤ n) : w' = w :=
  BitVec.eq_of_getLsbD_eq fun k hk => h k (by omega)

theorem SameYoungest.of_eq (n : Nat) {w w' : Window} (h : w' = w) : SameYoungest n w w' :=
  fun _ _ => by rw [h]

/-- A bit that both windows receive is one more that they share (41_bit_window.md R110). -/
theorem SameYoungest.shifted {m n : Nat} {w w' : Window} (h : SameYoungest n w w') (hm : m ≤ n + 1) (b : BitVec 1) :
    SameYoungest m (shifted w b) (shifted w' b) := by
  rintro (_ | k) hk
  · rw [getLsbD_shifted_zero, getLsbD_shifted_zero]
  · rcases Nat.lt_or_ge k 25 with hk25 | hk25
    · rw [getLsbD_shifted_succ _ _ hk25, getLsbD_shifted_succ _ _ hk25, h k (by omega)]
    · rw [BitVec.getLsbD_of_ge _ _ (by omega), BitVec.getLsbD_of_ge _ _ (by omega)]

/-- The bits of the window that are certain to be younger than the last reset: as many as SEEKING_A has counted, and all
of them once a block A has been found. -/
def State.youngBits (s : State) : Nat :=
  if s.state = .seekingA then s.pos else 26

theorem youngBits_receive_le (b : BitVec 1) (s : State) : (receive b s).youngBits ≤ s.youngBits + 1 := by
  have hpos : posNext s ≤ s.pos + 1 := Nat.mod_le _ _
  change (if s.state = .seekingA then posNext s else 26) ≤ (if s.state = .seekingA then s.pos else 26) + 1
  split_ifs
  · exact hpos
  · exact Nat.le_succ 26

/-- The slots of the group in progress that are captured already: those below this number (43_group_assembler.md R144). -/
def SyncState.captured : SyncState → Nat
  | .seekingA => 0
  | .expectingB => 1
  | .expectingC => 2
  | .expectingD => 3

/-- `t` differs from `s` only where no reader can tell: in the role wire, in PI, in window bits and slots that the block
will receive again before it uses them, and in SEL as long as both message buffers are blank. -/
structure Alike (s t : State) : Prop where
  rest : t = { s with w := t.w, slot := t.slot, pi := t.pi, sel := t.sel, role := t.role }
  window : SameYoungest s.youngBits s.w t.w
  slots : ∀ k : Fin 4, k.val < s.state.captured → t.slot[k] = s.slot[k]
  sel : t.sel = s.sel ∨ s.rt0 = [] ∧ s.rt1 = []

variable {s t : State}

theorem memRead_blank (h : s.rt0 = [] ∧ s.rt1 = []) (v : BitVec 1) (n : Nat) :
    memRead s (rtSpace v) 0 n = List.replicate n 0#8 := by
  obtain ⟨h0, h1⟩ := h
  have hspace : s.space (rtSpace v) = [] := by
    unfold rtSpace
    split
    · exact h0
    · exact h1
  simp [memRead, readByte, hspace]

theorem expectD_of_no_match (h : ¬ (s.pos = 26 ∧ s.role = some .D)) : expectD s = s := by
  by_cases hpos : s.pos = 26
  · exact expectD_mismatch hpos fun hD => h ⟨hpos, hD⟩
  · exact synchronize_locked_off (q := .expectingD) (by decide) hpos

theorem AgreeAfterReset.alike (h : AgreeAfterReset s t) : Alike s t := by
  obtain ⟨⟨hstate, hpos, -, hrt⟩, hrest⟩ := h
  refine ⟨hrest, fun k hk => ?_, fun k hk => ?_, .inr hrt⟩
  · rw [State.youngBits, if_pos hstate, hpos] at hk
    exact absurd hk (Nat.not_lt_zero k)
  · rw [hstate] at hk
    exact absurd hk (Nat.not_lt_zero k)

namespace Alike

theorem cfg (h : Alike s t) : t.cfg = s.cfg := (congrArg State.cfg h.rest :)
theorem pos (h : Alike s t) : t.pos = s.pos := (congrArg State.pos h.rest :)
theorem state (h : Alike s t) : t.state = s.state := (congrArg State.state h.rest :)
theorem ps (h : Alike s t) : t.ps = s.ps := (congrArg State.ps h.rest :)
theorem rt0 (h : Alike s t) : t.rt0 = s.rt0 := (congrArg State.rt0 h.rest :)
theorem rt1 (h : Alike s t) : t.rt1 = s.rt1 := (congrArg State.rt1 h.rest :)
theorem ready (h : Alike s t) : t.ready = s.ready := (congrArg State.ready h.rest :)
theorem reply (h : Alike s t) : t.reply = s.reply := (congrArg State.reply h.rest :)
theorem inputs (h : Alike s t) : t.inputs = s.inputs := (congrArg State.inputs h.rest :)

/-- At a check point the whole window is younger than the reset (42_block_synchronizer.md R127). -/
theorem window_eq (h : Alike s t) (hpos : 26 ≤ s.pos) : t.w = s.w :=
  h.window.eq (by unfold State.youngBits; split <;> omega)

/-! ### What a reader finds -/

theorem psOut (h : Alike s t) : psOut t = Machine.psOut s := (congrArg Machine.psOut h.rest :)

/-- The message buffer that SEL selects has the same bytes: where SEL differs, both buffers are blank. -/
theorem message (h : Alike s t) : memRead t (rtSpace t.sel) 0 64 = memRead s (rtSpace s.sel) 0 64 := by
  have hspaces (v : BitVec 1) : memRead t (rtSpace v) 0 64 = memRead s (rtSpace v) 0 64 :=
    (congrArg (memRead · (rtSpace v) 0 64) h.rest :)
  rw [hspaces]
  rcases h.sel with hsel | hblank
  · rw [hsel]
  · rw [memRead_blank hblank, memRead_blank hblank]

theorem rtOut (h : Alike s t) : rtOut t = Machine.rtOut s :=
  congrArg (fun bytes => BitVec.ofNat 512 (bytesToNat bytes)) h.message

theorem portReply (h : Alike s t) (p : Port) : portReply t p = Machine.portReply s p := by
  cases p with
  | psOut => exact (congrArg (Machine.portReply · .psOut) h.rest :)
  | rtOut => exact congrArg Reply.messageText h.message
  | readyOut => exact (congrArg (Machine.portReply · .readyOut) h.rest :)

/-! ### The operations that are no tick -/

theorem present (h : Alike s t) (xs : List Presented) : Alike (s.present xs) (t.present xs) :=
  ⟨congrArg (State.present xs) h.rest, h.window, h.slots, h.sel⟩

theorem answer (h : Alike s t) (r : Reply) : Alike (answer r s) (answer r t) :=
  ⟨congrArg (Machine.answer r) h.rest, h.window, h.slots, h.sel⟩

/-- A reset makes the buffers blank and asks nothing of W and of the slots (45_output_store_ops.md R172). -/
theorem afterReset (h : Alike s t) : Alike (afterReset s) (afterReset t) :=
  AgreeAfterReset.alike ⟨⟨rfl, rfl, rfl, rfl, rfl⟩, congrArg Machine.afterReset h.rest⟩

/-! ### The tick -/

theorem receive (h : Alike s t) (b : BitVec 1) : Alike (receive b s) (receive b t) := by
  have hrest := congrArg (Machine.receive b) h.rest
  refine ⟨hrest.trans ?_, h.window.shifted (youngBits_receive_le b s) b, h.slots, h.sel⟩
  simp [receive_eq, posNext, h.cfg]

theorem holdPos (h : Alike s t) (hw : t.w = s.w) : Alike (holdPos s) (holdPos t) :=
  ⟨congrArg Machine.holdPos h.rest, .of_eq _ hw, h.slots, h.sel⟩

theorem enter (h : Alike s t) (hw : t.w = s.w) {q : SyncState} (hq : q.captured ≤ s.state.captured) :
    Alike (enter q s) (enter q t) :=
  ⟨congrArg (Machine.enter q) h.rest, .of_eq _ hw, fun k hk => h.slots k (hk.trans_le hq), h.sel⟩

/-- The capture of the next slot makes one more slot the same in both. -/
theorem enter_capture (h : Alike s t) (hw : t.w = s.w) {q : SyncState} {k : Fin 4} (hk : k.val = s.state.captured)
    (hq : q.captured ≤ k.val + 1) : Alike (Machine.enter q (capture k s)) (Machine.enter q (capture k t)) := by
  refine ⟨congrArg (fun u => Machine.enter q (capture k u)) h.rest, .of_eq _ hw, fun j hj => ?_, h.sel⟩
  change (t.slot.set k (dataOf t.w))[j] = (s.slot.set k (dataOf s.w))[j]
  have hj : j.val < q.captured := hj
  by_cases hjk : k.val = j.val
  · simp [hjk, hw]
  · simpa [Vector.getElem_set, hjk] using h.slots j (by omega)

theorem extractPs (h : Alike s t) (a : DataWord) (i : BitVec 2) (d : DataWord) :
    Alike (extractPs a i d s) (extractPs a i d t) :=
  ⟨congrArg (Machine.extractPs a i d) h.rest, h.window, h.slots, h.sel⟩

/-- A message-text extraction sets SEL, from where on the buffers need not be blank. -/
theorem extractRt (h : Alike s t) (a : DataWord) (v : BitVec 1) (i : BitVec 4) (c d : DataWord) :
    Alike (extractRt a v i c d s) (extractRt a v i c d t) := by
  obtain rfl | rfl : v = 0#1 ∨ v = 1#1 := by revert v; decide
  · exact ⟨congrArg (Machine.extractRt a 0#1 i c d) h.rest, h.window, h.slots, .inl rfl⟩
  · exact ⟨congrArg (Machine.extractRt a 1#1 i c d) h.rest, h.window, h.slots, .inl rfl⟩

theorem decodeGroup (h : Alike s t) (a b c d : DataWord) : Alike (decodeGroup a b c d s) (decodeGroup a b c d t) := by
  rcases decodeGroup_cases a b c d s with ⟨ht, he⟩ | ⟨ht, he⟩ | ⟨h0, h15, h2, he⟩ <;> rw [he]
  · rw [decodeGroup_programName ht]; exact h.extractPs _ _ _
  · rw [decodeGroup_messageText ht]; exact h.extractRt _ _ _ _ _
  · rw [decodeGroup_ignored ⟨h0, h15, h2⟩]; exact h

/-! The four arms, each on the same window, POS and role (42_block_synchronizer.md R121 to R124) -/

theorem seekA (h : Alike s t) (hw : t.w = s.w) (hr : t.role = s.role) (hq : s.state = .seekingA) :
    Alike (seekA s) (seekA t) := by
  unfold Machine.seekA
  rw [h.pos, hr]
  split_ifs
  · exact (h.holdPos hw).enter_capture hw (congrArg SyncState.captured hq).symm le_rfl
  · exact h.holdPos hw
  · exact h

theorem expectB (h : Alike s t) (hw : t.w = s.w) (hr : t.role = s.role) (hq : s.state = .expectingB) :
    Alike (expectB s) (expectB t) := by
  unfold Machine.expectB
  rw [h.pos, hr]
  split_ifs
  · exact h.enter_capture hw (congrArg SyncState.captured hq).symm le_rfl
  · exact h
  · exact h

theorem expectC (h : Alike s t) (hw : t.w = s.w) (hr : t.role = s.role) (hq : s.state = .expectingC) :
    Alike (expectC s) (expectC t) := by
  unfold Machine.expectC
  rw [h.pos, hr]
  split_ifs
  · exact h.enter_capture hw (congrArg SyncState.captured hq).symm le_rfl
  · exact h.enter hw (by rw [hq]; decide)
  · exact h

/-- The Group Decoder gets the same four words: three captured slots and the data word of the window
(43_group_assembler.md R144). -/
theorem expectD (h : Alike s t) (hw : t.w = s.w) (hr : t.role = s.role) (hq : s.state = .expectingD) :
    Alike (expectD s) (expectD t) := by
  by_cases hmatch : s.pos = 26 ∧ s.role = some .D
  · obtain ⟨hpos, hD⟩ := hmatch
    have h0 : t.slot[0] = s.slot[0] := h.slots 0 (by rw [hq]; decide)
    have h1 : t.slot[1] = s.slot[1] := h.slots 1 (by rw [hq]; decide)
    have h2 : t.slot[2] = s.slot[2] := h.slots 2 (by rw [hq]; decide)
    rw [expectD_completed hpos hD, expectD_completed (h.pos.trans hpos) (hr.trans hD), h0, h1, h2, hw]
    exact (h.enter_capture hw (congrArg SyncState.captured hq).symm (by decide)).decodeGroup _ _ _ _
  · rwa [expectD_of_no_match hmatch, expectD_of_no_match (by rwa [h.pos, hr])]

/-- Before position 26 no arm acts; from there on both windows are the same, and so is the role they are tested by. -/
theorem synchronize (h : Alike s t) (hrole : t.w = s.w → t.role = s.role) :
    Alike (synchronize s.state s) (synchronize s.state t) := by
  rcases Nat.lt_or_ge s.pos 26 with hpos | hpos
  · rwa [synchronize_before hpos, synchronize_before (h.pos.trans_lt hpos)]
  · have hw := h.window_eq hpos
    cases hq : s.state with
    | seekingA => exact h.seekA hw (hrole hw) hq
    | expectingB => exact h.expectB hw (hrole hw) hq
    | expectingC => exact h.expectC hw (hrole hw) hq
    | expectingD => exact h.expectD hw (hrole hw) hq

theorem submitBit (h : Alike s t) (b : BitVec 1) : Alike (submitBit b s) (submitBit b t) := by
  have hsync := (h.receive b).synchronize fun hw => congrArg₂ roleOf h.cfg hw
  rwa [Machine.submitBit, Machine.submitBit, h.state]

/-! ### A step and a run -/

theorem exec (h : Alike s t) (x : Presented) {s' t' : State} (hs : exec (decodePresented x) s = .next s')
    (ht : Machine.exec (decodePresented x) t = .next t') : Alike s' t' := by
  cases x with
  | read p =>
    rw [decodePresented, exec_decodePort] at hs ht
    cases hs
    cases ht
    rw [h.portReply]
    exact h.answer _
  | cmd c =>
    rw [decodePresented] at hs ht
    rcases decodeCmd_cases c with ⟨-, v, b, hc⟩ | ⟨b, -, hc⟩ | ⟨b, -, hc⟩ <;> rw [hc] at hs ht
    · rw [eq_afterReset hs, eq_afterReset ht]
      exact h.afterReset
    · rw [exec_bitInstr] at hs ht
      cases hs
      cases ht
      exact h.submitBit b
    · cases hs
      cases ht
      exact h

end Alike

/-- What is performed next rests on the operations presented alone. -/
theorem fetch_of_inputs (ops : List Presented) :
    ∃ x rest, ∀ u : State, u.inputs = ops → fetch u = (decodePresented x, u.present rest) := by
  cases ops with
  | nil =>
    refine ⟨.cmd 0b000#3, [], fun u hu => ?_⟩
    have hpresent : u.present [] = u := by rw [← hu]; rfl
    rw [fetch, hu, hpresent]
    rfl
  | cons x rest => exact ⟨x, rest, fun u hu => by rw [fetch, hu]⟩

theorem Alike.step (h : Alike s t) {s' t' : State} (hs : step s = .next s') (ht : Machine.step t = .next t') :
    Alike s' t' := by
  obtain ⟨-, hs⟩ := (step_eq_next_iff s s').1 hs
  obtain ⟨-, ht⟩ := (step_eq_next_iff t t').1 ht
  obtain ⟨x, rest, hfetch⟩ := fetch_of_inputs s.inputs
  rw [hfetch s rfl] at hs
  rw [hfetch t h.inputs] at ht
  exact (h.present rest).exec x hs ht

theorem Alike.run {n : Nat} (h : Alike s t) {s' t' : State} (hs : Host.Core.run Sys2Proof.core n s = .next s')
    (ht : Host.Core.run Sys2Proof.core n t = .next t') : Alike s' t' := by
  induction n generalizing s t with
  | zero =>
    cases hs
    cases ht
    exact h
  | succ n ih =>
    obtain ⟨s₁, hs₁, hs⟩ := run_succ_inv hs
    obtain ⟨t₁, ht₁, ht⟩ := run_succ_inv ht
    exact ih (h.step hs₁ ht₁) hs ht

/-- Settles O46: states that agree after reset look alike, every step keeps that, and no reader sees more. -/
theorem registersLeftByResetCannotBeSeen : Obligations.RegistersLeftByResetCannotBeSeen := by
  intro n s t s' t' _ hagree hs ht
  have h := hagree.alike.run hs ht
  exact ⟨h.reply, h.state, h.pos, h.ready, h.ps, h.rt0, h.rt1, h.psOut, h.rtOut, h.ready⟩

end Sys2Proof.Machine
end

section
/-! SUPPORT. The decoder and the encoder are inverse to each other, format by format (30_encoding.md R77, R80, R84): a
command word is its three bits, a port its number, a group view its fields and a syndrome the constant of its role. -/

namespace Sys2Proof.Machine

/-! ### GROUP words (30_encoding.md R72, R74) -/

theorem view_type (a : DataWord) (t : BitVec 4) (x : BitVec 12) (c d : DataWord) :
    field (a ++ (t ++ x) ++ c ++ d) 44 4 = t := by
  rw [view_groupType, groupType, BitVec.extractLsb'_append_eq_left]

/-- A field of the twelve bits of word B below the type. -/
theorem view_lowBits (a : DataWord) (t : BitVec 4) (x : BitVec 12) (c d : DataWord) {o n : Nat} (h : o + n ≤ 12) :
    field (a ++ (t ++ x) ++ c ++ d) (32 + o) n = x.extractLsb' o n := by
  rw [view_field_b a _ c d o n (by omega), BitVec.extractLsb'_append_eq_of_add_le h]

theorem view_ignoredBits (a : DataWord) (t : BitVec 4) (x : BitVec 12) (c d : DataWord) :
    field (a ++ (t ++ x) ++ c ++ d) 32 12 = x :=
  (view_lowBits a t x c d (o := 0) (by decide)).trans BitVec.extractLsb'_eq_self

/-! The program-name rows cut the low bits into ten ignored ones and the index. -/

theorem view_psIgnored (a : DataWord) (t : BitVec 4) (x : BitVec 10) (i : BitVec 2) (c d : DataWord) :
    field (a ++ (t ++ (x ++ i)) ++ c ++ d) 34 10 = x :=
  (view_lowBits a t (x ++ i) c d (o := 2) (by decide)).trans BitVec.extractLsb'_append_eq_left

theorem view_psSegment (a : DataWord) (t : BitVec 4) (x : BitVec 10) (i : BitVec 2) (c d : DataWord) :
    field (a ++ (t ++ (x ++ i)) ++ c ++ d) 32 2 = i :=
  (view_lowBits a t (x ++ i) c d (o := 0) (by decide)).trans BitVec.extractLsb'_append_eq_right

/-! The message-text row cuts them into seven ignored ones, the variant and the index. -/

theorem view_rtIgnored (a : DataWord) (t : BitVec 4) (x : BitVec 7) (v : BitVec 1) (i : BitVec 4) (c d : DataWord) :
    field (a ++ (t ++ (x ++ v ++ i)) ++ c ++ d) 37 7 = x := by
  refine (view_lowBits a t (x ++ v ++ i) c d (o := 5) (by decide)).trans ?_
  rw [BitVec.extractLsb'_append_eq_of_le (by decide)]
  exact BitVec.extractLsb'_append_eq_left

theorem view_rtVariant (a : DataWord) (t : BitVec 4) (x : BitVec 7) (v : BitVec 1) (i : BitVec 4) (c d : DataWord) :
    field (a ++ (t ++ (x ++ v ++ i)) ++ c ++ d) 36 1 = v := by
  refine (view_lowBits a t (x ++ v ++ i) c d (o := 4) (by decide)).trans ?_
  rw [BitVec.extractLsb'_append_eq_of_le (by decide)]
  exact BitVec.extractLsb'_append_eq_right

theorem view_rtSegment (a : DataWord) (t : BitVec 4) (x : BitVec 7) (v : BitVec 1) (i : BitVec 4) (c d : DataWord) :
    field (a ++ (t ++ (x ++ v ++ i)) ++ c ++ d) 32 4 = i :=
  (view_lowBits a t (x ++ v ++ i) c d (o := 0) (by decide)).trans BitVec.extractLsb'_append_eq_right

theorem decode_groupBits (cfg : Config) (a : DataWord) (t : BitVec 4) (x : BitVec 12) (c d : DataWord) :
    decode cfg ⟨.group, groupBits a t x c d⟩ = .ok (decodeGroupView (a ++ (t ++ x) ++ c ++ d)) :=
  decode_group cfg _

/-- The four words and the type, put together again from their fields. -/
theorem groupBits_fields (g : GroupView) :
    groupBits (field g 48 16) (BitVec.ofNat 4 (field g 44 4).toNat) (field g 32 12) (field g 16 16) (field g 0 16) =
      g.toNat := by
  have hb : field g 44 4 ++ field g 32 12 = field g 32 16 := BitVec.extractLsb'_append_extractLsb'_eq_extractLsb' rfl
  rw [groupBits, BitVec.ofNat_toNat, BitVec.setWidth_eq, hb, view_words]

/-- Every view is the encoding of its row: the bits that a row ignores are operands of it. -/
theorem encode_decodeGroupView (cfg : Config) (g : GroupView) :
    encode cfg (decodeGroupView g) = ⟨.group, g.toNat⟩ := by
  have hps : field g 34 10 ++ field g 32 2 = field g 32 12 := BitVec.extractLsb'_append_extractLsb'_eq_extractLsb' rfl
  have hrt : field g 37 7 ++ field g 36 1 ++ field g 32 4 = field g 32 12 := by
    have hlow : field g 37 7 ++ field g 36 1 = field g 36 8 := BitVec.extractLsb'_append_extractLsb'_eq_extractLsb' rfl
    rw [hlow]
    exact BitVec.extractLsb'_append_extractLsb'_eq_extractLsb' rfl
  rw [← groupBits_fields g]
  unfold decodeGroupView
  split
  case h_1 ht => rw [ht, encode, hps]; rfl
  case h_3 ht => rw [ht, encode, hrt]; rfl
  case h_16 =>
    have hlt : (field g 44 4).toNat < 16 := (field g 44 4).isLt
    have ht : (field g 44 4).toNat = 15 := by grind
    rw [ht, encode, hps]; rfl
  all_goals
    next ht => rw [ht]; rfl

/-! ### CMD words (30_encoding.md R80) -/

/-- The four command rows and the words of each. -/
theorem decodeCmd_rows (c : BitVec 3) :
    (c = 0b010#3 ∧ decodeCmd c = .submitBit0) ∨ (c = 0b011#3 ∧ decodeCmd c = .submitBit1) ∨
    (∃ v b, c = 1#1 ++ v ++ b ∧ decodeCmd c = .reset v b) ∨ (∃ b, c = 0#2 ++ b ∧ decodeCmd c = .idle b) := by
  revert c; decide

theorem decodeCmd_reset (v b : BitVec 1) : decodeCmd (1#1 ++ v ++ b) = .reset v b := by
  revert v b; decide

theorem decodeCmd_idle (b : BitVec 1) : decodeCmd (0#2 ++ b) = .idle b := by
  revert b; decide

theorem encode_decodeCmd (cfg : Config) (c : BitVec 3) : encode cfg (decodeCmd c) = ⟨.cmd, c.toNat⟩ := by
  rcases decodeCmd_rows c with ⟨rfl, h⟩ | ⟨rfl, h⟩ | ⟨v, b, rfl, h⟩ | ⟨b, rfl, h⟩ <;> rw [h] <;> rfl

/-! ### PORT words (log 8) -/

theorem encode_decodePort {n : Nat} {p : Port} (cfg : Config) (h : portOfNumber n = some p) :
    encode cfg (decodePort p) = ⟨.port, n⟩ := by
  unfold portOfNumber at h
  split at h <;> cases h <;> rfl

/-! ### SYNDROME words (30_encoding.md R84) -/

theorem encode_roleRow (cfg : Config) (r : BlockRole) : encode cfg (roleRow r) = ⟨.syndrome, (offs cfg r).toNat⟩ := by
  cases r <;> rfl

/-- A syndrome decodes to the row of the role that it answers, and to none for NONE (30_encoding.md R78). -/
theorem decode_syndrome (cfg : Config) (y : Syndrome) :
    decode cfg ⟨.syndrome, y.toNat⟩ =
      (roleOfSyndrome cfg y).elim (.error .roleNone) fun r => .ok (roleRow r) := by
  have hfits : ¬ 2 ^ Format.syndrome.width ≤ y.toNat := Nat.not_le.2 y.isLt
  cases hr : roleOfSyndrome cfg y <;> simp [decode, hfits, hr]

theorem decode_encode_roleRow {cfg : Config} (h : cfg.offsDistinct = true) (r : BlockRole) :
    decode cfg (encode cfg (roleRow r)) = .ok (roleRow r) := by
  rw [encode_roleRow, decode_syndrome, roleOfSyndrome_offs h]
  rfl

/-! ### The two round trips -/

/-- Settles O1, row by row: each format's decoder cuts out the operands that the encoding has put together. -/
theorem decodeOfEncodeIsTheOperation : Obligations.DecodeOfEncodeIsTheOperation := by
  intro cfg i hwf
  cases i with
  | programName | messageText | isReady => rfl
  | submitBit0 => exact (decode_cmd cfg 0b010#3).trans (congrArg _ (by decide))
  | submitBit1 => exact (decode_cmd cfg 0b011#3).trans (congrArg _ (by decide))
  | reset v b => exact (decode_cmd cfg _).trans (congrArg _ (decodeCmd_reset v b))
  | idle b => exact (decode_cmd cfg _).trans (congrArg _ (decodeCmd_idle b))
  | roleA => exact decode_encode_roleRow hwf .A
  | roleB => exact decode_encode_roleRow hwf .B
  | roleC => exact decode_encode_roleRow hwf .C
  | roleCp => exact decode_encode_roleRow hwf .Cp
  | roleD => exact decode_encode_roleRow hwf .D
  | groupT0ProgramName a x i c d | groupT15ProgramName a x i c d =>
    rw [encode, decode_groupBits, decodeGroupView, view_type, view_word_a, view_psIgnored, view_psSegment,
      view_word_c, view_word_d]
    rfl
  | groupT2MessageText a x v i c d =>
    rw [encode, decode_groupBits, decodeGroupView, view_type, view_word_a, view_rtIgnored, view_rtVariant,
      view_rtSegment, view_word_c, view_word_d]
    rfl
  | _ a x c d =>
    rw [encode, decode_groupBits, decodeGroupView, view_type, view_word_a, view_ignoredBits, view_word_c, view_word_d]
    rfl

theorem exists_toNat {n w : Nat} (h : n < 2 ^ w) : ∃ x : BitVec w, x.toNat = n :=
  ⟨.ofNatLT n h, rfl⟩

/-- A number that decodes fits the word of its format. -/
theorem bits_lt_of_decode_ok {cfg : Config} {w : TableWord} {i : Instr} (h : decode cfg w = .ok i) :
    w.bits < 2 ^ w.format.width := by
  by_contra hwide
  simp [decode, Nat.not_lt.1 hwide] at h

/-- Settles O2, format by format: the word is the bits that its format's encoding writes for the row. -/
theorem encodeOfDecodeIsTheWord : Obligations.EncodeOfDecodeIsTheWord := by
  intro cfg w i h
  obtain ⟨f, n⟩ := w
  have hlt : n < 2 ^ f.width := bits_lt_of_decode_ok h
  cases f with
  | cmd =>
    obtain ⟨c, rfl⟩ := exists_toNat (w := 3) hlt
    rw [decode_cmd] at h
    cases h
    exact encode_decodeCmd cfg c
  | port =>
    obtain ⟨p, hp, rfl⟩ := decode_port_ok h
    exact encode_decodePort cfg hp
  | group =>
    obtain ⟨g, rfl⟩ := exists_toNat (w := 64) hlt
    rw [decode_group] at h
    cases h
    exact encode_decodeGroupView cfg g
  | syndrome =>
    obtain ⟨y, rfl⟩ := exists_toNat (w := 10) hlt
    obtain ⟨r, hr, rfl⟩ := decode_syndrome_ok h
    rw [encode_roleRow, ← eq_offs_of_roleOfSyndrome hr]

/-- Settles O3: each word evaluated. -/
theorem tableWordsDecodeToTheirRows : Obligations.TableWordsDecodeToTheirRows := by
  unfold Obligations.TableWordsDecodeToTheirRows
  decide

end Sys2Proof.Machine
end

section
/-! SUPPORT. One step: it performs the operation presented next (30_encoding.md R80), it is refused for an illegal
configuration and for nothing else (00_scope.md R8), and it keeps the invariant (10_state.md R25, R31). -/

namespace Sys2Proof.Machine

/-! ### The operation presented next (20_memory.md R58) -/

theorem step_of_inputs {s : State} (hwf : s.cfg.wellFormed = true) {x : Presented} {rest : List Presented}
    (hin : s.inputs = x :: rest) : step s = exec (decodePresented x) (s.present rest) := by
  rw [step, if_pos hwf, fetch, hin]

theorem step_of_no_inputs {s : State} (hwf : s.cfg.wellFormed = true) (hin : s.inputs = []) :
    step s = exec (.idle 0#1) s := by
  rw [step, if_pos hwf, fetch, hin]
  rfl

/-- Settles O4: what decodes is what the presented operation stands for. -/
theorem stepPerformsThePresentedOperation : Obligations.StepPerformsThePresentedOperation := by
  intro s hwf
  refine ⟨fun c rest i hin hi => ?_, fun p n rest i hin hp hi => ?_, step_of_no_inputs hwf⟩
  · rw [decode_cmd] at hi
    cases hi
    exact step_of_inputs hwf hin
  · obtain ⟨q, hq, rfl⟩ := decode_port_ok hi
    obtain rfl : p = q := Option.some.inj (hp.symm.trans hq)
    exact step_of_inputs hwf hin

/-- Settles O40: the meaning of IDLE is the state itself. -/
theorem idleChangesNothing : Obligations.IdleChangesNothing :=
  fun _ _ => rfl

theorem decodeCmd_of_resetReq {c : BitVec 3} (hc : c.getLsbD 2 = true) : ∃ v b, decodeCmd c = .reset v b := by
  revert c; decide

/-- Settles O39: every command word with `reset_req` set is a RESET row, and all of these have one meaning. -/
theorem resetRequestDropsTheBit : Obligations.ResetRequestDropsTheBit := by
  intro s c rest hwf hin hc
  obtain ⟨v, b, hdec⟩ := decodeCmd_of_resetReq hc
  have hstep : step s = .next (afterReset (s.present rest)) := by
    rw [step_of_inputs hwf hin, decodePresented, hdec, exec_reset]
  exact ⟨hstep.trans (exec_reset _ _ _).symm, _, hstep, rfl, rfl⟩

/-! ### Legal configurations (00_scope.md R7, R8) -/

theorem wellFormed_iff (cfg : Config) :
    cfg.wellFormed = true ↔ [cfg.offsA, cfg.offsB, cfg.offsC, cfg.offsCp, cfg.offsD].Nodup ∧ 5 ≤ cfg.posw := by
  rw [Config.wellFormed, Bool.and_eq_true]
  exact and_congr decide_eq_true_iff decide_eq_true_iff

theorem step_of_legal {s : State} (hwf : s.cfg.wellFormed = true) : ∃ t, step s = .next t := by
  obtain ⟨t, ht, -⟩ := exec_keeps_cfg (fetch s).1 (fetch s).2
  exact ⟨t, (step_eq_next_iff s t).2 ⟨hwf, ht⟩⟩

theorem step_of_illegal {s : State} (hwf : ¬ s.cfg.wellFormed = true) : step s = .refused .illegalConfiguration :=
  if_neg hwf

/-- Settles O6: no row's meaning stops, and a legal configuration is not refused. -/
theorem everyOperationCompletes : Obligations.EveryOperationCompletes :=
  fun _ => step_of_legal

/-- Settles O5: a legal configuration has a next state, so only an illegal one is refused. -/
theorem stepRefusesExactlyIllegalConfigurations : Obligations.StepRefusesExactlyIllegalConfigurations := by
  intro s
  rw [← Nat.not_le, ← not_and_or, ← wellFormed_iff]
  refine ⟨fun h hwf => ?_, step_of_illegal⟩
  obtain ⟨t, ht⟩ := step_of_legal hwf
  cases h.symm.trans ht

/-! ### The values after reset (10_state.md R33) -/

/-- Settles O9: the state after reset is one that a reset leaves. -/
theorem stateAfterResetHasTheInvariant : Obligations.StateAfterResetHasTheInvariant :=
  afterReset_inv (s := State.reset) (by decide)

/-- Settles O11: the fields as written, and the bytes that a reset leaves. -/
theorem stateAfterResetHoldsTheResetValues : Obligations.StateAfterResetHoldsTheResetValues :=
  ⟨fun _ _ _ _ _ _ _ _ _ => ⟨rfl, rfl⟩, rfl, rfl, rfl, readByte_afterReset State.reset⟩

/-! ### The invariant (10_state.md R25, R31) -/

/-- The invariant without what it says of POS in SEEKING_A and in EXPECTING_C: what holds in the middle of a tick, between
the count and the arm of the Block Synchronizer. -/
structure State.Sound (s : State) : Prop where
  configLegal : s.cfg.wellFormed = true
  posInWidth : s.pos < 2 ^ s.cfg.posw
  spaces : s.spacesWf

theorem State.Inv.sound {s : State} (h : s.Inv) : s.Sound :=
  ⟨h.configLegal, h.posInWidth, h.psCanonical, h.rt0Canonical, h.rt1Canonical⟩

namespace State.Sound

variable {s : State}

theorem inv (h : s.Sound) (hA : s.state = .seekingA → s.pos ≤ 26) (hC : s.state = .expectingC → s.pos < 26) :
    s.Inv := by
  obtain ⟨hwf, hpos, hps, hrt0, hrt1⟩ := h
  exact ⟨hwf, hpos, hA, hC, hps, hrt0, hrt1⟩

/-- The two states that may stall ask nothing more of POS. -/
theorem inv_of_stalling (h : s.Sound) (hq : s.state = .expectingB ∨ s.state = .expectingD) : s.Inv := by
  rcases hq with hq | hq <;> exact h.inv (by simp [hq]) (by simp [hq])

theorem holdPos (h : s.Sound) : (holdPos s).Sound := by
  have hpos : (Machine.holdPos s).pos ≤ s.pos := by rw [holdPos_pos]; split <;> omega
  exact ⟨h.configLegal, hpos.trans_lt h.posInWidth, h.spaces⟩

theorem receive (h : s.Sound) (b : BitVec 1) : (receive b s).Sound :=
  ⟨h.configLegal, Nat.mod_lt _ (Nat.two_pow_pos _), h.spaces⟩

/-- A state entered at position 0 is in range, whichever it is. -/
theorem enter (h : s.Sound) (q : SyncState) : (enter q s).Inv :=
  inv ⟨h.configLegal, Nat.two_pow_pos _, h.spaces⟩ (fun _ => Nat.zero_le 26) (fun _ => Nat.zero_lt_succ 25)

theorem enter_capture (h : s.Sound) (q : SyncState) (k : Fin 4) : (Machine.enter q (capture k s)).Inv :=
  enter (s := capture k s) ⟨h.configLegal, h.posInWidth, h.spaces⟩ q

end State.Sound

theorem State.Inv.decodeGroup {s : State} (h : s.Inv) (a b c d : DataWord) : (decodeGroup a b c d s).Inv := by
  obtain ⟨hstate, hpos, -⟩ := decodeGroup_sync a b c d s
  have hcfg := (decodeGroup_frame a b c d s).cfg
  have hsound : (Machine.decodeGroup a b c d s).Sound := by
    refine ⟨?_, ?_, decodeGroup_spacesWf a b c d h.sound.spaces⟩
    · rw [hcfg]; exact h.configLegal
    · rw [hcfg, hpos]; exact h.posInWidth
  refine hsound.inv ?_ ?_ <;> rw [hstate, hpos]
  · exact h.posSeeking
  · exact h.posExpectingC

/-! The four arms, from the STATE of each (42_block_synchronizer.md R121 to R124) -/

/-- SEEKING_A counts below 26 and holds POS there. -/
theorem seekA_inv {s : State} (h : s.Sound) (hq : s.state = .seekingA) : (seekA s).Inv := by
  rcases Nat.lt_or_ge s.pos 26 with hpos | hpos
  · rw [seekA_before hpos]
    exact h.inv (fun _ => hpos.le) (by simp [hq])
  · by_cases hr : s.role = some .A
    · rw [seekA_match hpos hr]
      exact h.holdPos.enter_capture _ _
    · rw [seekA_mismatch hpos hr]
      exact h.holdPos.inv (fun _ => by rw [holdPos_of_ge hpos]) (by simp [hq])

theorem expectB_inv {s : State} (h : s.Sound) (hq : s.state = .expectingB) : (expectB s).Inv := by
  unfold expectB
  split_ifs
  · exact h.enter_capture _ _
  · exact h.inv_of_stalling (.inl hq)
  · exact h.inv_of_stalling (.inl hq)

/-- EXPECTING_C leaves 26 in the tick that reaches it. -/
theorem expectC_inv {s : State} (h : s.Sound) (hq : s.state = .expectingC) (hpos : s.pos ≤ 26) : (expectC s).Inv := by
  unfold expectC
  split_ifs with h26
  · exact h.enter_capture _ _
  · exact h.enter _
  · exact h.inv (by simp [hq]) (fun _ => by omega)

theorem expectD_inv {s : State} (h : s.Sound) (hq : s.state = .expectingD) : (expectD s).Inv := by
  unfold expectD
  split_ifs
  · exact (h.enter_capture _ _).decodeGroup _ _ _ _
  · exact h.inv_of_stalling (.inr hq)
  · exact h.inv_of_stalling (.inr hq)

theorem submitBit_inv {s : State} (h : s.Inv) (b : BitVec 1) : (submitBit b s).Inv := by
  have hsound := h.sound.receive b
  unfold submitBit
  cases hq : s.state with
  | seekingA => exact seekA_inv hsound hq
  | expectingB => exact expectB_inv hsound hq
  | expectingC =>
    have hcount : posNext s ≤ s.pos + 1 := Nat.mod_le _ _
    exact expectC_inv hsound hq (hcount.trans (h.posExpectingC hq))
  | expectingD => exact expectD_inv hsound hq

/-- Settles O8: of what a step can do, only the tick and the reset write what the invariant speaks of. -/
theorem stepKeepsTheInvariant : Obligations.StepKeepsTheInvariant := by
  intro s t h hstep
  have hpresent (xs : List Presented) : (s.present xs).Inv := { h with }
  cases stepEffect_of_step hstep with
  | silent => exact h
  | bit b rest => exact submitBit_inv (hpresent rest) b
  | reset => exact afterReset_inv h.configLegal
  | idle b rest => exact hpresent rest
  | read p rest => exact { h with }

end Sys2Proof.Machine
end

section
/-! SUPPORT. The tick state by state (42_block_synchronizer.md R121 to R123), the Syndrome Decoder in it
(40_syndrome_decoder.md R100 to R103), and the bytes of the output ports (30_encoding.md R80). -/

namespace Sys2Proof.Machine

/-! ### The syndrome (40_syndrome_decoder.md R100, R103) -/

/-- Settles O15, from the linearity of the loop of R100. -/
theorem syndromeIsLinear : Obligations.SyndromeIsLinear :=
  fun cfg => ⟨syn_zero cfg, syn_xor cfg⟩

/-- Settles O16: the sum over the bits of the window has one term. -/
theorem syndromeOfOneBitIsItsTableEntry : Obligations.SyndromeOfOneBitIsItsTableEntry :=
  fun cfg i => (syn_oneBit cfg i.isLt).trans (dif_pos i.isLt)

/-! ### The role wire (10_state.md R20, log 7) -/

/-- Settles O18: the five rows of `roleRow`. -/
theorem roleRowsAnswerAndWriteNoRegister : Obligations.RoleRowsAnswerAndWriteNoRegister :=
  fun s => ⟨exec_roleRow .A s, exec_roleRow .B s, exec_roleRow .C s, exec_roleRow .Cp s, exec_roleRow .D s⟩

/-- Settles O19: the state before the arm has the answer for its window, which is the row that the syndrome decodes to. -/
theorem tickRunsTheSyndromeRow : Obligations.TickRunsTheSyndromeRow := by
  intro s b
  refine ⟨_, (exec_bitInstr b s).trans (congrArg _ (submitBit_next b s)), fun i hi => ?_, fun hnone => ?_⟩
  · obtain ⟨r, hr, rfl⟩ := decode_syndrome_ok hi
    have hrole : roleNext s b = some r := hr
    rw [exec_roleRow, hrole]
    rfl
  · have hrole : roleNext s b = none := by
      rw [decode_syndrome] at hnone
      cases hr : roleOfSyndrome s.cfg (syn s.cfg (wNext s b)) with
      | none => exact hr
      | some r => simp [hr] at hnone
    rw [hrole]

theorem decodeGroup_role (a b c d : DataWord) (s : State) : (decodeGroup a b c d s).role = s.role := by
  rcases decodeGroup_cases a b c d s with ⟨-, he⟩ | ⟨-, he⟩ | ⟨-, -, -, he⟩ <;> rw [he]
  · rfl
  · simp [extractRt]

/-- No arm of the Block Synchronizer drives the wire. -/
theorem synchronize_role (q : SyncState) (s : State) : (synchronize q s).role = s.role := by
  cases q <;> simp only [synchronize]
  case seekingA => unfold seekA; split_ifs <;> rfl
  case expectingB => unfold expectB; split_ifs <;> rfl
  case expectingC => unfold expectC; split_ifs <;> rfl
  case expectingD =>
    unfold expectD
    split_ifs
    · exact decodeGroup_role _ _ _ _ _
    · rfl
    · rfl

/-- Settles O20: `receive` writes the wire without reading it, and no arm writes it again. -/
theorem roleOutputIsCombinational : Obligations.RoleOutputIsCombinational := by
  intro s b r
  rw [exec_bitInstr, exec_bitInstr]
  refine ⟨rfl, _, rfl, ?_⟩
  rw [submitBit_cfg, submitBit_w]
  exact synchronize_role s.state (receive b s)

/-! ### The tick of each state (42_block_synchronizer.md R121 to R123) -/

/-- Settles O21: SEEKING_A before 26, at a match and at a mismatch. -/
theorem tickInSeekingA : Obligations.TickInSeekingA := by
  intro s b hstate
  rw [exec_bitInstr, submitBit_next, hstate, synchronize]
  refine ⟨fun hpos => congrArg _ (seekA_before hpos), fun hpos hrole => congrArg _ ?_, fun hpos hrole => congrArg _ ?_⟩
  · rw [seekA_match hpos hrole, ← hrole]
    rfl
  · rw [seekA_mismatch hpos hrole, holdPos_of_ge hpos]

/-- Settles O22: a match is captured; otherwise POS or the role is not the one the arm tests for. -/
theorem tickInExpectingB : Obligations.TickInExpectingB := by
  intro s b hstate
  rw [exec_bitInstr, submitBit_next, hstate, synchronize]
  refine ⟨fun hpos hrole => congrArg _ ?_, fun hmiss => congrArg _ ?_⟩
  · rw [expectB_match hpos hrole, ← hrole]
    rfl
  · by_cases hpos : posNext s = 26
    · exact expectB_mismatch hpos (hmiss.resolve_left (not_not_intro hpos))
    · exact synchronize_locked_off (q := .expectingB) (by decide) hpos

/-- Settles O23: at 26 a match or the fall-back, elsewhere nothing. -/
theorem tickInExpectingC : Obligations.TickInExpectingC := by
  intro s b hstate
  rw [exec_bitInstr, submitBit_next, hstate, synchronize]
  refine ⟨fun hpos hrole => congrArg _ ?_, fun hpos hC hCp => congrArg _ ?_, fun hpos => congrArg _ ?_⟩
  · exact expectC_match hpos hrole
  · exact expectC_mismatch hpos ⟨hC, hCp⟩
  · exact synchronize_locked_off (q := .expectingC) (by decide) hpos

/-! ### The output ports (30_encoding.md R80) -/

theorem bytesToNat_concat (bs : List Byte) (b : Byte) : bytesToNat (bs ++ [b]) = bytesToNat bs * 256 + b.toNat := by
  simp [bytesToNat]

/-- Each byte stands at its distance from the last one. -/
theorem bytesToNat_digit (bs : List Byte) {k : Nat} (hk : k < bs.length) :
    bytesToNat bs / 256 ^ (bs.length - 1 - k) % 256 = (bs[k]).toNat := by
  induction bs using List.reverseRecOn with
  | nil => exact absurd hk (Nat.not_lt_zero k)
  | append_singleton bs b ih =>
    have hb : b.toNat < 256 := b.isLt
    rw [List.length_append, List.length_singleton] at hk ⊢
    rw [bytesToNat_concat]
    rcases Nat.lt_or_eq_of_le (Nat.le_of_lt_succ hk) with hlt | rfl
    · have hdist : bs.length + 1 - 1 - k = bs.length - 1 - k + 1 := by omega
      have hshift : (bytesToNat bs * 256 + b.toNat) / 256 = bytesToNat bs := by omega
      rw [hdist, Nat.pow_succ', ← Nat.div_div_eq_div_mul, hshift, ih hlt, List.getElem_append_left hlt]
    · simp [Nat.mod_eq_of_lt hb]

/-- Byte `j` of a word, from the least significant up, is a digit of the word's number. -/
theorem toNat_byte_ofNat {w j : Nat} (x : Nat) (hj : 8 * j + 8 ≤ w) :
    ((BitVec.ofNat w x).extractLsb' (8 * j) 8).toNat = x / 256 ^ j % 256 := by
  have hsize : 2 ^ w = 256 ^ j * (256 * 2 ^ (w - (8 * j + 8))) := by
    calc 2 ^ w = 2 ^ (8 * j + (8 + (w - (8 * j + 8)))) := by congr 1; omega
      _ = 256 ^ j * (256 * 2 ^ (w - (8 * j + 8))) := by rw [Nat.pow_add, Nat.pow_add, Nat.pow_mul]
  rw [BitVec.extractLsb'_toNat, BitVec.toNat_ofNat, Nat.shiftRight_eq_div_pow, Nat.pow_mul, hsize]
  exact (congrArg (· % 256) (Nat.mod_mul_right_div_self _ _ _)).trans (Nat.mod_mul_right_mod _ _ _)

/-- A port made of the `n` bytes from offset 0 up carries byte `k` in place `k` from its most significant byte down. -/
theorem port_byte (s : State) (sp : Space) {w n k : Nat} (hw : w = 8 * n) (hk : k < n) :
    (BitVec.ofNat w (bytesToNat (memRead s sp 0 n))).extractLsb' (8 * (n - 1 - k)) 8 = readByte s sp k := by
  have hlen : (memRead s sp 0 n).length = n := by simp [memRead]
  have hdigit := bytesToNat_digit (memRead s sp 0 n) (k := k) (by rwa [hlen])
  have hbyte : (memRead s sp 0 n)[k] = readByte s sp k := by simp [memRead]
  rw [hbyte, hlen] at hdigit
  apply BitVec.eq_of_toNat_eq
  rw [toNat_byte_ofNat _ (by omega), hdigit]

/-- Settles O42: a port is the bytes of its space, and SEL names the space of the message text. -/
theorem portsCarryTheBytesInOrder : Obligations.PortsCarryTheBytesInOrder := by
  refine fun s => ⟨fun k hk => ?_, fun k hk => ?_, rfl⟩
  · rw [psOut]
    exact port_byte s .ps (n := 8) (by decide) hk
  · rw [rtOut]
    exact port_byte s (rtSpace s.sel) (n := 64) (by decide) hk

end Sys2Proof.Machine
end
